-- ==== Sys2Proof/Word.lean ====
section
/-! DEFINITION. The words of the FBR: register words, operand halves, bus bytes and colour codes. -/

namespace Sys2Proof

/-- A register or `CMD` word (R23: eight 32-bit registers; R8: `REG_BITS` = 32). -/
abbrev Word := BitVec 32

/-- Half of an operand word (R8: `COORD_BITS` = `SIZE_BITS` = 16). -/
abbrev Half := BitVec 16

/-- One byte lane of the host bus (R55). -/
abbrev Byte := BitVec 8

/-- A colour code: the content of one cell (R20, R21: 2 bits, OFF = 0, COLOR_A = 1, COLOR_B = 2, COLOR_C = 3). -/
abbrev Color := BitVec 2

/-- OFF, the colour code 0 (R21). -/
def Color.off : Color := 0

end Sys2Proof
end

