-- ==== Sys2Proof/Config.lean ====
section
/-! DEFINITION. The parameters of rule R8, and the values the spec leaves free. -/

namespace Sys2Proof

/-- The parameters a model takes as arguments (R8; `93_implementation_defined.md` U9, U10, U11).
They stand in `State.cfg`, so that every statement over all states holds for every value of them;
no step changes them (log 1). -/
structure Config where
  /-- `FB_W`: grid width in cells. -/
  fbW : Nat
  /-- `FB_H`: grid height in cells. -/
  fbH : Nat
  /-- `BASE`: host byte address of the register window. -/
  base : Nat
  /-- What the platform bus does with a host access still held when `RST` comes (R213, U9):
  `true` it retries the access after reset, `false` it aborts it (log 12). -/
  heldRetried : Bool
  deriving DecidableEq, Repr

/-- The legal parameters (R8): each side of the grid 1 to 255, `BASE` a multiple of 256. -/
def Config.legal (cfg : Config) : Bool :=
  decide (1 ≤ cfg.fbW) && decide (cfg.fbW ≤ 255) && decide (1 ≤ cfg.fbH) && decide (cfg.fbH ≤ 255)
    && decide (cfg.base % 256 = 0)

/-- The number of cells, `FB_W * FB_H` (R20). -/
def Config.cells (cfg : Config) : Nat := cfg.fbW * cfg.fbH

/-- The reference configuration, 32 by 16 (R8).
DESIGN CHOICE (log 1, log 12): `BASE` is OPEN and stands at 0; a held access is aborted at reset. -/
def Config.reference : Config := { fbW := 32, fbH := 16, base := 0, heldRetried := false }

/-- The contents of cell `i` after the `draw`-th assertion of `RST`: unspecified (R40, R211, U1).
A FREE VALUE (log 3): nothing constrains it. -/
opaque Config.unspecifiedCell (draw i : Nat) : Color

end Sys2Proof
end

