-- ==== Sys2Proof/Syntax.lean ====
section
/-! DEFINITION. The commands of the FBR: one constructor per row of the opcode table (R80, R86, R87). -/

namespace Sys2Proof

/-- A command as its `CMD` word carries it (R80). The points, sizes and radii stand in `ARG0` and
`ARG1`, not in the word (R83). `color` is the whole 8-bit `COLOR` field, before the mask of R82;
`op` is the reserved `OP` value itself. -/
inductive Instr where
  /-- `NOP`, OP 0x0 (R112). -/
  | nop
  /-- `CLEAR`, OP 0x1 (R113). -/
  | clear
  /-- `SETPIX`, OP 0x2 (R114). -/
  | setpix (color : Nat)
  /-- `GETPIX`, OP 0x3 (R115). -/
  | getpix
  /-- `LINE`, OP 0x4 (R131). -/
  | line (color : Nat)
  /-- `RECT`, OP 0x5 (R140). -/
  | rect (color : Nat)
  /-- `FILLRECT`, OP 0x6 (R145). -/
  | fillrect (color : Nat)
  /-- `CIRCLE`, OP 0x7 (R151). -/
  | circle (color : Nat)
  /-- `FLUSH`, OP 0x8 (R160). -/
  | flush
  /-- Reserved OP 0x9 (R117). -/
  | reserved9
  /-- Reserved OP 0xA and 0xB (R117). -/
  | reservedAB (op : Nat)
  /-- Reserved OP 0xC to 0xF (R117). -/
  | reservedCF (op : Nat)
  deriving DecidableEq, Repr

/-- The row of `spec/opcode_table.json` a command belongs to. -/
def Instr.mnemonic : Instr → String
  | .nop => "NOP"
  | .clear => "CLEAR"
  | .setpix _ => "SETPIX"
  | .getpix => "GETPIX"
  | .line _ => "LINE"
  | .rect _ => "RECT"
  | .fillrect _ => "FILLRECT"
  | .circle _ => "CIRCLE"
  | .flush => "FLUSH"
  | .reserved9 => "RESERVED_9"
  | .reservedAB _ => "RESERVED_A_B"
  | .reservedCF _ => "RESERVED_C_F"

end Sys2Proof
end

