-- ==== Sys2Proof/Machine/State.lean ====
section
/-! DEFINITION. The state of the FBR and of its agents, and the state at the end of reset
(`10_state.md` R20 to R40, `60_exceptions.md` R187). -/

namespace Sys2Proof.Machine

/-- `eng_state` (R37). -/
inductive EngState where
  /-- No command runs. -/
  | idle
  /-- The reset clear runs (R212). -/
  | clearing
  /-- The latched command runs (R38). -/
  | running
  deriving DecidableEq, Repr

/-- What the engine latches when a `CMD` write is accepted (R38). -/
structure Latch where
  /-- `L_OP = CMD[3:0]`. -/
  op : BitVec 4
  /-- `L_COLOR = CMD[9:8]`. -/
  color : Color
  /-- `ARG0` at the `CMD` write. -/
  arg0 : Word
  /-- `ARG1` at the `CMD` write. -/
  arg1 : Word
  deriving DecidableEq, Repr

/-- The working variables of `Line` (R37, R130): exact integers of no bounded width (R9, log 20). -/
structure LineVars where
  x : Int
  y : Int
  dx : Int
  dy : Int
  sx : Int
  sy : Int
  err : Int
  deriving DecidableEq, Repr

/-- The row and column cursors of `FILLRECT` (R37, R145). -/
structure FillVars where
  row : Int
  col : Int
  deriving DecidableEq, Repr

/-- The working variables of `Circle` and the index of the symmetric point (R37, R150). -/
structure CircleVars where
  x : Int
  y : Int
  err : Int
  point : Nat
  deriving DecidableEq, Repr

/-- The engine's working variables (R37). They have no meaning while the engine is idle (U2, log 4). -/
structure Work where
  line : LineVars
  /-- `RECT`: the edge index. -/
  edge : Nat
  fill : FillVars
  circle : CircleVars
  /-- Flush and clear: the cell cursor, in the linear index of R68. -/
  cursor : Nat
  deriving DecidableEq, Repr

/-- One transfer `(x, y, colour)` on the sink port (R39, R161): `SNK_X`, `SNK_Y`, `SNK_COLOR`. -/
structure Transfer where
  x : BitVec 8
  y : BitVec 8
  color : Color
  deriving DecidableEq, Repr

/-- The sink port's state (R39): `SNK_VALID` and the pending transfer. -/
structure SinkPort where
  valid : Bool
  payload : Transfer
  deriving DecidableEq, Repr

/-- The width of a host access: 32 bits (R51), or narrower (R53). DESIGN CHOICE (log 21): the narrower
ones are those of one, two and three bytes, and no access is wider than 32 bits; R53 names no width
but 32 and says nothing of wider accesses. -/
inductive AccessWidth where
  | byte
  | half
  | threeBytes
  | word
  deriving DecidableEq, Repr

/-- A host bus access (R51): `MemRead(addr, n)` or `MemWrite(addr, n, v)`. -/
inductive Access where
  | read (addr : Nat) (width : AccessWidth)
  | write (addr : Nat) (width : AccessWidth) (value : Word)
  deriving DecidableEq, Repr

/-- One line of a host's command sequence (R89, R92). -/
inductive HostOp where
  /-- One `RD` or `WR` access (R89). -/
  | access (a : Access)
  /-- `WAIT`: read `STATUS` until `BUSY = 0` (R92). -/
  | wait
  deriving DecidableEq, Repr

/-- The agents of R187. -/
inductive Agent where
  | host
  | engine
  /-- A clock edge at which `SNK_READY = 1` (R162). -/
  | sink
  /-- `RST` asserted and released (R210). -/
  | reset
  deriving DecidableEq, Repr

/-- The pixel SRAM as a list of (linear index, colour) pairs in one canonical form: indexes strictly
rising, no entry OFF; an unlisted cell reads OFF (R20, R68; log 2, log 14). -/
abbrev Memory := List (Nat × Color)

/-- The machine. Every field but `turns` and `freeDraws` is the spec's (INVENTORY.md, State). -/
structure State where
  /-- The parameters of R8; no step changes them. -/
  cfg : Config
  /-- `fb` (R20). -/
  fb : Memory
  /-- `STATUS.BUSY` (R25). -/
  busy : Bool
  /-- `ARG0` (R27). -/
  arg0 : Word
  /-- `ARG1` (R28). -/
  arg1 : Word
  /-- `PIXDATA` (R29). -/
  pixdata : Word
  /-- `PLOTCNT` (R30). -/
  plotcnt : Word
  /-- `WRCNT` (R31). -/
  wrcnt : Word
  /-- `eng_state` (R37). -/
  eng : EngState
  /-- The `CMD` latch (R38). -/
  latch : Latch
  /-- The working variables (R37). -/
  work : Work
  /-- The sink port (R39). -/
  snk : SinkPort
  /-- The transfers the sink accepted, oldest first (R162). -/
  trace : List Transfer
  /-- The host's accesses not yet issued, in program order (R62). -/
  program : List HostOp
  /-- The one outstanding host access, while it is held (R60). -/
  pending : Option Access
  /-- The values the host's reads returned, oldest first (R89, R215). -/
  reads : List Word
  /-- The model's: which agent moves at each of the next steps (log 6). -/
  turns : List Agent
  /-- The model's: how many times unspecified `fb` contents were drawn (log 3). -/
  freeDraws : Nat
  deriving DecidableEq, Repr

/-- Why the machine stops with a fault. No command and no access in the window raises one (R180). -/
inductive Fault where
  /-- A host access to an address outside `BASE .. BASE + 0xFF`, to which the FBR does not respond
  (R52). Raised by the host's turn that issues the access. Safe: the model stops where the platform
  goes on (log 10). -/
  | outsideWindow
  deriving DecidableEq, Repr

/-- Why the model refuses a step. -/
inductive Refusal where
  /-- The command has no meaning in the model. Raised by no arm of `exec`. Safe. -/
  | notModelled (mnemonic : String)
  /-- The parameters are outside their legal range (R8): there is no such FBR. Raised by every step
  of such a state. Safe (log 11). -/
  | illegalConfig
  deriving DecidableEq, Repr

/-- The working variables at reset. DESIGN CHOICE (log 4): the spec leaves them unspecified (R40). -/
def Work.reset : Work :=
  { line := { x := 0, y := 0, dx := 0, dy := 0, sx := 0, sy := 0, err := 0 }
    edge := 0
    fill := { row := 0, col := 0 }
    circle := { x := 0, y := 0, err := 0, point := 0 }
    cursor := 0 }

/-- The machine when `RST` is released (R40, R211): registers and latch 0, `BUSY = 1`, the reset
clear about to run, `SNK_VALID = 0`. DESIGN CHOICE: no cell listed (log 2), working variables (log 4)
and sink payload (log 5) 0, the reference parameters (log 1), no host access and no turn yet (log 6). -/
def State.reset : State :=
  { cfg := Config.reference
    fb := []
    busy := true
    arg0 := 0
    arg1 := 0
    pixdata := 0
    plotcnt := 0
    wrcnt := 0
    eng := .clearing
    latch := { op := 0, color := 0, arg0 := 0, arg1 := 0 }
    work := Work.reset
    snk := { valid := false, payload := { x := 0, y := 0, color := 0 } }
    trace := []
    program := []
    pending := none
    reads := []
    turns := []
    freeDraws := 0 }

end Sys2Proof.Machine
end

