-- ==== Sys2Proof/Machine/Flags.lean ====
section
/-! DEFINITION. The two flags of the FBR, `STATUS.BUSY` and `PIXDATA.OOR` (R35), and the words they
stand in. There are no condition codes. -/

namespace Sys2Proof.Machine

/-- The word a read of `STATUS` returns: `BUSY` in bit 0, bits 31:1 read 0 (R25). -/
def statusWord (busy : Bool) : Word := if busy then 1 else 0

/-- A command (or the reset clear) ends: `eng_state <- IDLE`, `BUSY <- 0` (R25, R112, R212). -/
def finish (s : State) : State := { s with eng := .idle, busy := false }

/-- `PIXDATA` after an in-range `GETPIX`: `zext_32(fb[x, y])`, `OOR = 0` (R29, R115). -/
def pixdataOfCell (c : Color) : Word := c.setWidth 32

/-- `PIXDATA` after an out-of-range `GETPIX`: the sentinel, `OOR = 1`, colour 0 (R29, R115). -/
def pixdataSentinel : Word := 0x00000100

/-- `PIXDATA.PCOLOR`, bits 1:0 (R29). -/
def pcolorOf (w : Word) : Color := w.extractLsb' 0 2

/-- `PIXDATA.OOR`, bit 8 (R29). -/
def oorOf (w : Word) : Bool := w.getLsbD 8

end Sys2Proof.Machine
end

