-- ==== Sys2Proof/WellFormed.lean ====
section
/-! DEFINITION. Which commands a `CMD` word can carry. -/

namespace Sys2Proof

/-- A `COLOR` operand fits its 8-bit field (R80). -/
def colorFits (color : Nat) : Bool := decide (color < 256)

/-- A command a `CMD` word can carry: the colour fits its field (R80), and a reserved command's `op`
is one of the values of its row (R86, R87). -/
def Instr.wf : Instr → Bool
  | .nop => true
  | .clear => true
  | .setpix color => colorFits color
  | .getpix => true
  | .line color => colorFits color
  | .rect color => colorFits color
  | .fillrect color => colorFits color
  | .circle color => colorFits color
  | .flush => true
  | .reserved9 => true
  | .reservedAB op => decide (op = 0xA) || decide (op = 0xB)
  | .reservedCF op => decide (0xC ≤ op) && decide (op ≤ 0xF)

end Sys2Proof
end

