-- ==== Sys2Proof/Decode.lean ====
section
/-! DEFINITION. From a `CMD` word to a command and back (R80, R82, R86, R87, R90), and the word's
four bytes on the bus (R55). -/

namespace Sys2Proof

/-- `OP = CMD[3:0]` (R80). -/
def cmdOp (w : Word) : BitVec 4 := w.extractLsb' 0 4

/-- `COLOR = CMD[15:8]` (R80). -/
def cmdColor (w : Word) : BitVec 8 := w.extractLsb' 8 8

/-- The opcode map of R86: `OP` alone selects the command, and every value selects one (R88). -/
def decodeOp (op : BitVec 4) (color : BitVec 8) : Instr :=
  match op.toNat with
  | 0x0 => .nop
  | 0x1 => .clear
  | 0x2 => .setpix color.toNat
  | 0x3 => .getpix
  | 0x4 => .line color.toNat
  | 0x5 => .rect color.toNat
  | 0x6 => .fillrect color.toNat
  | 0x7 => .circle color.toNat
  | 0x8 => .flush
  | 0x9 => .reserved9
  | 0xA => .reservedAB 0xA
  | 0xB => .reservedAB 0xB
  | _ => .reservedCF op.toNat

/-- The command a `CMD` word stands for. Total (R86): no encoding is illegal (R87). -/
def decode (w : Word) : Instr := decodeOp (cmdOp w) (cmdColor w)

/-- Why bytes are no `CMD` word. -/
inductive DecodeError where
  /-- Fewer than four bytes: a command is exactly one 32-bit `CMD` write (R80), and a narrower access
  starts no command (R53). -/
  | truncated
  deriving DecidableEq, Repr

/-- The 32-bit word of four byte lanes, lane 0 first: little-endian (R55). -/
def wordOfBytes (b0 b1 b2 b3 : Byte) : Word := b3 ++ b2 ++ b1 ++ b0

/-- The four byte lanes of a word, lane 0 first (R55). -/
def bytesOfWord (w : Word) : List Byte :=
  [w.extractLsb' 0 8, w.extractLsb' 8 8, w.extractLsb' 16 8, w.extractLsb' 24 8]

/-- Decoding from bytes: one word, and the bytes after it. -/
def decodeBytes : List Byte → Except DecodeError (Instr × List Byte)
  | b0 :: b1 :: b2 :: b3 :: rest => .ok (decode (wordOfBytes b0 b1 b2 b3), rest)
  | _ => .error .truncated

/-- The `CMD` word an assembler writes, `(c << 8) | OP` (R90). -/
def commandWord (op color : Nat) : Word := BitVec.ofNat 32 ((color <<< 8) ||| op)

/-- The `CMD` word of a command, ignored bits 0 (R87, R90). -/
def encode : Instr → Word
  | .nop => commandWord 0x0 0
  | .clear => commandWord 0x1 0
  | .setpix color => commandWord 0x2 color
  | .getpix => commandWord 0x3 0
  | .line color => commandWord 0x4 color
  | .rect color => commandWord 0x5 color
  | .fillrect color => commandWord 0x6 color
  | .circle color => commandWord 0x7 color
  | .flush => commandWord 0x8 0
  | .reserved9 => commandWord 0x9 0
  | .reservedAB op => commandWord op 0
  | .reservedCF op => commandWord op 0

/-- The command the decoder reads from a table row's `nbits` bits `w`, the bits above them 0; a row
wider than the one 32-bit word is no command of the FBR (R80). -/
def decodeTableWord (nbits w : Nat) : Option Instr :=
  if nbits ≤ 32 then
    match decodeBytes (bytesOfWord (BitVec.ofNat 32 (w % 2 ^ nbits))) with
    | .ok (i, _) => some i
    | .error _ => none
  else none

/-- A row of the opcode map in the mask-and-match form of R86. -/
structure OpcodeRow where
  mnemonic : String
  mask : Word
  value : Word
  deriving DecidableEq, Repr

/-- The row selects the word: `CMD & mask == value` (R86). -/
def OpcodeRow.matchesWord (r : OpcodeRow) (w : Word) : Bool := w &&& r.mask == r.value

/-- The twelve rows of the opcode table, masks and values as the table has them (R86, R87). -/
def opcodeRows : List OpcodeRow :=
  [ ⟨"NOP", 0x0000000F, 0x00000000⟩, ⟨"CLEAR", 0x0000000F, 0x00000001⟩,
    ⟨"SETPIX", 0x0000000F, 0x00000002⟩, ⟨"GETPIX", 0x0000000F, 0x00000003⟩,
    ⟨"LINE", 0x0000000F, 0x00000004⟩, ⟨"RECT", 0x0000000F, 0x00000005⟩,
    ⟨"FILLRECT", 0x0000000F, 0x00000006⟩, ⟨"CIRCLE", 0x0000000F, 0x00000007⟩,
    ⟨"FLUSH", 0x0000000F, 0x00000008⟩, ⟨"RESERVED_9", 0x0000000F, 0x00000009⟩,
    ⟨"RESERVED_A_B", 0x0000000E, 0x0000000A⟩, ⟨"RESERVED_C_F", 0x0000000C, 0x0000000C⟩ ]

end Sys2Proof
end

