-- ==== Sys2Proof/Machine/Ops.lean ====
section
/-! DEFINITION. The named operations every command is built of: the pixel SRAM, the bounds-checked
`Plot`, the counters, the working variables, and the acceptance of a `CMD` write.
The FBR raises no exception, takes no trap and has no trap return (R180, R184, R185), so there is no
exception entry here; the one event from outside that changes everything is `RST` (Machine/Reset.lean). -/

namespace Sys2Proof.Machine

/-! ### The pixel SRAM by linear index -/

/-- The cell at linear index `a`; an unlisted cell is OFF (log 2). -/
def Memory.read : Memory → Nat → Color
  | [], _ => Color.off
  | (k, v) :: m, a => if k = a then v else Memory.read m a

/-- The list `m` with `a` listed with colour `c` when `c` is not OFF, in front of all of `m`. -/
def Memory.push (a : Nat) (c : Color) (m : Memory) : Memory :=
  if c = Color.off then m else (a, c) :: m

/-- Write one whole cell (R69); writing OFF unlists it, so the form stays canonical (log 2). -/
def Memory.write : Memory → Nat → Color → Memory
  | [], a, c => Memory.push a c []
  | (k, v) :: m, a, c =>
    if a < k then Memory.push a c ((k, v) :: m)
    else if a = k then Memory.push a c m
    else (k, v) :: Memory.write m a c

/-- Every listed index is at least `lo`, the indexes rise strictly, and no listed cell is OFF. -/
def Memory.wfFrom : Nat → Memory → Bool
  | _, [] => true
  | lo, (k, v) :: m => decide (lo ≤ k) && decide (v ≠ Color.off) && Memory.wfFrom (k + 1) m

/-- The canonical form of the pixel SRAM. -/
def Memory.wf (m : Memory) : Bool := Memory.wfFrom 0 m

/-! ### Cells by coordinate -/

/-- `InRange(x, y)` (R110), on exact integers. -/
def inRange (cfg : Config) (x y : Int) : Bool :=
  decide (0 ≤ x) && decide (x < cfg.fbW) && decide (0 ≤ y) && decide (y < cfg.fbH)

/-- The linear index `y * FB_W + x` of an in-range cell (R68). -/
def cellIndex (cfg : Config) (x y : Int) : Nat := y.toNat * cfg.fbW + x.toNat

/-- `fb[x, y]` (R20). -/
def State.cell (s : State) (x y : Int) : Color := s.fb.read (cellIndex s.cfg x y)

/-! ### Updates of one part of the state -/

/-- `fb` replaced. -/
def State.setFb (m : Memory) (s : State) : State := { s with fb := m }

/-- `PIXDATA` replaced (R29). -/
def State.setPixdata (w : Word) (s : State) : State := { s with pixdata := w }

/-- The working variables replaced (R37). -/
def State.setWork (w : Work) (s : State) : State := { s with work := w }

/-- The line's working variables replaced (R37). -/
def State.setLine (v : LineVars) (s : State) : State := s.setWork { s.work with line := v }

/-- The rectangle's edge index replaced (R37). -/
def State.setEdge (k : Nat) (s : State) : State := s.setWork { s.work with edge := k }

/-- The fill's cursors replaced (R37). -/
def State.setFill (v : FillVars) (s : State) : State := s.setWork { s.work with fill := v }

/-- The circle's working variables replaced (R37). -/
def State.setCircle (v : CircleVars) (s : State) : State := s.setWork { s.work with circle := v }

/-- The cell cursor replaced (R37). -/
def State.setCursor (k : Nat) (s : State) : State := s.setWork { s.work with cursor := k }

/-- The sink port replaced (R39). -/
def State.setSnk (p : SinkPort) (s : State) : State := { s with snk := p }

/-- The turns replaced (log 6). -/
def State.setTurns (ts : List Agent) (s : State) : State := { s with turns := ts }

/-! ### Plot -/

/-- A drawing command's start: `PLOTCNT <- 0; WRCNT <- 0` (R116). -/
def zeroCounters (s : State) : State := { s with plotcnt := 0, wrcnt := 0 }

/-- `Plot(x, y, c)` (R111), the only way a drawing command writes `fb`: `PLOTCNT` always rises; an
in-range plot writes the cell and raises `WRCNT`; any other is dropped. The colour is 2 bits wide, so
the mask `c & 0x3` of R111 is already applied (R82). -/
def plot (x y : Int) (c : Color) (s : State) : State :=
  { s with
    plotcnt := s.plotcnt + 1
    wrcnt := if inRange s.cfg x y then s.wrcnt + 1 else s.wrcnt
    fb := if inRange s.cfg x y then s.fb.write (cellIndex s.cfg x y) c else s.fb }

/-! ### Clearing -/

/-- `n` cells from the cell cursor on are set OFF, one by one (R113, R69). -/
def clearLoop : Nat → State → State
  | 0, s => s
  | n + 1, s => clearLoop n ((s.setFb (s.fb.write s.work.cursor Color.off)).setCursor (s.work.cursor + 1))

/-- Every cell OFF, by the cell cursor in row-major order (R113, R212; the order cannot be observed). -/
def clearCells (s : State) : State := clearLoop s.cfg.cells (s.setCursor 0)

/-! ### Starting a command -/

/-- A `CMD` write of `w` is accepted (R38, R56): the latch takes `CMD[3:0]`, `CMD[9:8]`, `ARG0` and
`ARG1`, `BUSY` becomes 1 and the engine runs, its cell cursor at the first cell (log 8). -/
def startCommand (w : Word) (s : State) : State :=
  { s with
    latch := { op := cmdOp w, color := w.extractLsb' 8 2, arg0 := s.arg0, arg1 := s.arg1 }
    busy := true
    eng := .running
    work := { s.work with cursor := 0 } }

/-- The latched command as a `CMD` word: `L_OP` and `L_COLOR` in their places, every other bit 0. -/
def Latch.word (l : Latch) : Word := (0 : BitVec 22) ++ l.color ++ (0 : BitVec 4) ++ l.op

end Sys2Proof.Machine
end

