-- ==== Sys2Proof/Machine/Bus.lean ====
section
/-! DEFINITION. The host's register window: address decoding, access rules, holds, and the effect of
a completed access (`10_state.md` R23 to R32, `20_memory.md` R50 to R64). -/

namespace Sys2Proof.Machine

/-- The eight registers of R23. -/
inductive Reg where
  | id
  | status
  | cmd
  | arg0
  | arg1
  | pixdata
  | plotcnt
  | wrcnt
  deriving DecidableEq, Repr

/-- The address decode of R52: `offset = (addr - BASE)[7:0]`. -/
def busOffset (cfg : Config) (addr : Nat) : BitVec 8 := BitVec.ofNat 8 (addr - cfg.base)

/-- The FBR responds to `BASE .. BASE + 0xFF` only (R52). -/
def inWindow (cfg : Config) (addr : Nat) : Bool :=
  decide (cfg.base ≤ addr) && decide (addr ≤ cfg.base + 0xFF)

/-- The register map of R23; every other offset is reserved (R32). -/
def regAt (offset : BitVec 8) : Option Reg :=
  match offset.toNat with
  | 0x00 => some .id
  | 0x04 => some .status
  | 0x08 => some .cmd
  | 0x0C => some .arg0
  | 0x10 => some .arg1
  | 0x14 => some .pixdata
  | 0x18 => some .plotcnt
  | 0x1C => some .wrcnt
  | _ => none

/-- An access the FBR honours is 32 bits wide (R53) and aligned, `offset[1:0] = 0b00` (R54). -/
def honoured (offset : BitVec 8) (width : AccessWidth) : Bool :=
  decide (width = .word) && decide (offset.toNat % 4 = 0)

/-- The register an access reaches, if it is honoured and its offset is not reserved. -/
def selected (cfg : Config) (addr : Nat) (width : AccessWidth) : Option Reg :=
  if honoured (busOffset cfg addr) width then regAt (busOffset cfg addr) else none

/-- `ID`: `MAGIC` 0xFB00, `FB_H`, `FB_W` (R24). -/
def idWord (cfg : Config) : Word :=
  (0xFB00 : BitVec 16) ++ BitVec.ofNat 8 cfg.fbH ++ BitVec.ofNat 8 cfg.fbW

/-- What a read of a register returns (R24 to R31). `CMD` is write-only and reads 0 (R26). -/
def readReg (s : State) : Reg → Word
  | .id => idWord s.cfg
  | .status => statusWord s.busy
  | .cmd => 0
  | .arg0 => s.arg0
  | .arg1 => s.arg1
  | .pixdata => s.pixdata
  | .plotcnt => s.plotcnt
  | .wrcnt => s.wrcnt

/-- What a write of a register does (R23): `ARG0` and `ARG1` keep every bit, `CMD` starts a command
(R56), the read-only registers ignore it. -/
def writeReg (w : Word) (s : State) : Reg → State
  | .id => s
  | .status => s
  | .cmd => startCommand w s
  | .arg0 => { s with arg0 := w }
  | .arg1 => { s with arg1 := w }
  | .pixdata => s
  | .plotcnt => s
  | .wrcnt => s

/-- The value a completed read returns: 0 for a reserved offset and for a narrow or misaligned access
(R32, R53, R54). -/
def readData (s : State) (addr : Nat) (width : AccessWidth) : Word :=
  match selected s.cfg addr width with
  | some r => readReg s r
  | none => 0

/-- The effect of a completed write: none for a reserved offset and for a narrow or misaligned access
(R32, R53, R54). -/
def writeData (s : State) (addr : Nat) (width : AccessWidth) (w : Word) : State :=
  match selected s.cfg addr width with
  | some r => writeReg w s r
  | none => s

/-- The host receives a read's value (R89). -/
def recordRead (w : Word) (s : State) : State := { s with reads := s.reads ++ [w] }

/-- The address of an access. -/
def Access.addr : Access → Nat
  | .read addr _ => addr
  | .write addr _ _ => addr

/-- The accesses that are never held: honoured reads of `STATUS` and `ID` (R60, R61; log 9). -/
def neverHeld (cfg : Config) : Access → Bool
  | .read addr width =>
    decide (selected cfg addr width = some .id) || decide (selected cfg addr width = some .status)
  | .write _ _ _ => false

/-- An access is held when it arrives while `BUSY = 1`, unless it is a read of `STATUS` or `ID`
(R60). -/
def held (s : State) (a : Access) : Bool := s.busy && !neverHeld s.cfg a

/-- The access completes (R51): a read returns its value and changes nothing else (R56), a write has
its register's effect. -/
def complete (a : Access) (s : State) : State :=
  match a with
  | .read addr width => recordRead (readData s addr width) s
  | .write addr width w => writeData s addr width w

end Sys2Proof.Machine
end

