-- ==== Sys2Proof/Machine/Flush.lean ====
section
/-! DEFINITION. `FLUSH` and the pixel-transmit sink port (`42_flush.md` R160 to R165). The engine
offers one transfer a step and takes a final step to `BUSY = 0`; the sink takes one step for each
transfer it accepts (R187, log 8). -/

namespace Sys2Proof.Machine

/-- The transfer of the cell at linear index `i`: `x` inner, `y` outer (R160, R161). -/
def transferAt (cfg : Config) (fb : Memory) (i : Nat) : Transfer :=
  { x := BitVec.ofNat 8 (i % cfg.fbW), y := BitVec.ofNat 8 (i / cfg.fbW), color := fb.read i }

/-- The engine raises `SNK_VALID` with the payload of the cell under the cursor (R162, step 1). -/
def offerTransfer (s : State) : State :=
  s.setSnk { valid := true, payload := transferAt s.cfg s.fb s.work.cursor }

/-- One step of the engine at a running `FLUSH` (R160, R162): while a transfer is offered it holds
port and payload stable; otherwise it offers the next cell; after the last it ends. It never
completes a transfer on its own (R164). -/
def execFlush (s : State) : Host.Outcome State Fault Refusal :=
  if s.snk.valid then .next s
  else if s.work.cursor < s.cfg.cells then .next (offerTransfer s)
  else .next (finish s)

/-- A clock edge at which `SNK_READY = 1` (R162): an offered transfer is accepted, once, and
`SNK_VALID` falls (R39); with none offered, nothing happens. -/
def sinkAccept (s : State) : State :=
  if s.snk.valid then
    { s with
      trace := s.trace ++ [s.snk.payload]
      snk := { s.snk with valid := false }
      work := { s.work with cursor := s.work.cursor + 1 } }
  else s

end Sys2Proof.Machine
end

