-- ==== Sys2Proof/Machine/Operands.lean ====
section
/-! DEFINITION. Every operand form of the commands (R81, R82, R83): signed points, unsigned sizes and
radii, the masked colour. Commands read the latched words only (R38, R63). -/

namespace Sys2Proof.Machine

/-- `A0L` or `A1L`: bits 15:0 of an operand word (R81). -/
def lowHalf (w : Word) : Half := w.extractLsb' 0 16

/-- `A0H` or `A1H`: bits 31:16 of an operand word (R81). -/
def highHalf (w : Word) : Half := w.extractLsb' 16 16

/-- `sext_16` (R10). -/
def sext16 (h : Half) : Int := h.toInt

/-- `zext_16` (R10). -/
def zext16 (h : Half) : Nat := h.toNat

/-- `x`, `x0` of every command that takes a point: `sext_16(A0L)` of the latched `ARG0` (R83). -/
def pointX (s : State) : Int := sext16 (lowHalf s.latch.arg0)

/-- `y`, `y0` of every command that takes a point: `sext_16(A0H)` of the latched `ARG0` (R83). -/
def pointY (s : State) : Int := sext16 (highHalf s.latch.arg0)

/-- `x1` of `LINE`: `sext_16(A1L)` of the latched `ARG1` (R83). -/
def endX (s : State) : Int := sext16 (lowHalf s.latch.arg1)

/-- `y1` of `LINE`: `sext_16(A1H)` of the latched `ARG1` (R83). -/
def endY (s : State) : Int := sext16 (highHalf s.latch.arg1)

/-- `w` of `RECT` and `FILLRECT`: `zext_16(A1L)` (R83). -/
def sizeW (s : State) : Nat := zext16 (lowHalf s.latch.arg1)

/-- `h` of `RECT` and `FILLRECT`: `zext_16(A1H)` (R83). -/
def sizeH (s : State) : Nat := zext16 (highHalf s.latch.arg1)

/-- `r` of `CIRCLE`: `zext_16(A1L)`; `A1H` is ignored (R83). -/
def radius (s : State) : Nat := zext16 (lowHalf s.latch.arg1)

/-- The colour operand `c = COLOR & 0x03` (R82): the low two bits, never an error. -/
def maskColor (color : Nat) : Color := BitVec.ofNat 2 color

end Sys2Proof.Machine
end

