-- ==== Sys2Proof/Machine/Framebuffer.lean ====
section
/-! DEFINITION. The framebuffer commands `NOP`, `CLEAR`, `SETPIX`, `GETPIX` and the reserved opcodes
(`40_framebuffer.md` R112 to R117). Each is the engine's one atomic step to `BUSY = 0` (R37, R187). -/

namespace Sys2Proof.Machine

/-- `NOP` (R112). -/
def execNop (s : State) : Host.Outcome State Fault Refusal := .next (finish s)

/-- `CLEAR` (R113): every cell OFF, written directly; counters and `PIXDATA` kept. -/
def execClear (s : State) : Host.Outcome State Fault Refusal := .next (finish (clearCells s))

/-- `SETPIX` (R114): counters zeroed, one plot. -/
def execSetpix (color : Nat) (s : State) : Host.Outcome State Fault Refusal :=
  .next (finish (plot (pointX s) (pointY s) (maskColor color) (zeroCounters s)))

/-- What `GETPIX` reads at `(x, y)` (R115). -/
def getpixWord (x y : Int) (s : State) : Word :=
  if inRange s.cfg x y then pixdataOfCell (s.cell x y) else pixdataSentinel

/-- `GETPIX` (R115): `PIXDATA` only. -/
def execGetpix (s : State) : Host.Outcome State Fault Refusal :=
  .next (finish (s.setPixdata (getpixWord (pointX s) (pointY s) s)))

/-- Reserved `OP` 0x9: as `NOP` (R117). -/
def execReserved9 (s : State) : Host.Outcome State Fault Refusal := .next (finish s)

/-- Reserved `OP` 0xA and 0xB: as `NOP`, whichever of the two (R117). -/
def execReservedAB (_op : Nat) (s : State) : Host.Outcome State Fault Refusal := .next (finish s)

/-- Reserved `OP` 0xC to 0xF: as `NOP`, whichever of the four (R117). -/
def execReservedCF (_op : Nat) (s : State) : Host.Outcome State Fault Refusal := .next (finish s)

end Sys2Proof.Machine
end

