-- ==== Sys2Proof/Machine/Raster.lean ====
section
/-! DEFINITION. The scan-conversion commands `LINE`, `RECT`, `FILLRECT` and `CIRCLE`
(`41_raster.md` R130 to R151). The loops run on the engine's own working variables (R37); each
command is one atomic step of the engine (R187). A loop's first argument bounds its iterations, so
that it is a function; the loops end by their own tests before it runs out (log 15). -/

namespace Sys2Proof.Machine

/-! ### Line -/

/-- The start of `Line(x0, y0, x1, y1, c)` (R130). -/
def lineStart (x0 y0 x1 y1 : Int) : LineVars :=
  let dx : Int := (x1 - x0).natAbs
  let dy : Int := (y1 - y0).natAbs
  { x := x0, y := y0, dx := dx, dy := dy, sx := (x1 - x0).sign, sy := (y1 - y0).sign, err := dx - dy }

/-- The updates after a plot that was not the last (R130): `e2 = 2 * err` is sampled once; an x step
subtracts `dy` from `err`, a y step adds `dx`. On exact integers: `e2` may pass the bound that R9
derives for it, and the updates of R130 stand (DESIGN CHOICE, log 20). -/
def lineStep (v : LineVars) : LineVars :=
  let e2 := 2 * v.err
  let v1 := if e2 > -v.dy then { v with err := v.err - v.dy, x := v.x + v.sx } else v
  if e2 < v.dx then { v1 with err := v1.err + v1.dx, y := v1.y + v1.sy } else v1

/-- The loop of `Line` (R130): plot, return at the endpoint, otherwise step. -/
def lineLoop (x1 y1 : Int) (c : Color) : Nat → State → State
  | 0, s => s
  | n + 1, s =>
    if s.work.line.x = x1 ∧ s.work.line.y = y1 then plot s.work.line.x s.work.line.y c s
    else lineLoop x1 y1 c n
      ((plot s.work.line.x s.work.line.y c s).setLine (lineStep s.work.line))

/-- A bound of the plots of a line: every plot but the last is followed by a step along at least one
axis, towards the endpoint (log 15). -/
def lineBound (v : LineVars) : Nat := (v.dx + v.dy).toNat + 1

/-- `Line(x0, y0, x1, y1, c)` (R130). -/
def drawLine (x0 y0 x1 y1 : Int) (c : Color) (s : State) : State :=
  lineLoop x1 y1 c (lineBound (lineStart x0 y0 x1 y1)) (s.setLine (lineStart x0 y0 x1 y1))

/-- `LINE` (R131). -/
def execLine (color : Nat) (s : State) : Host.Outcome State Fault Refusal :=
  .next (finish (drawLine (pointX s) (pointY s) (endX s) (endY s) (maskColor color) (zeroCounters s)))

/-! ### Rectangle outline -/

/-- One straight edge of an outline, as the arguments of its `Line` call. -/
structure Edge where
  x0 : Int
  y0 : Int
  x1 : Int
  y1 : Int
  deriving DecidableEq, Repr

/-- The four edges of R140 in their order: top left to right, right downward, bottom right to left,
left upward. -/
def rectEdge (x y xr yb : Int) : Nat → Edge
  | 0 => { x0 := x, y0 := y, x1 := xr, y1 := y }
  | 1 => { x0 := xr, y0 := y, x1 := xr, y1 := yb }
  | 2 => { x0 := xr, y0 := yb, x1 := x, y1 := yb }
  | _ => { x0 := x, y0 := yb, x1 := x, y1 := y }

/-- `n` edges from the edge index on (R140). -/
def rectLoop (x y xr yb : Int) (c : Color) : Nat → State → State
  | 0, s => s
  | n + 1, s =>
    let e := rectEdge x y xr yb s.work.edge
    rectLoop x y xr yb c n ((drawLine e.x0 e.y0 e.x1 e.y1 c s).setEdge (s.work.edge + 1))

/-- The body of `RECT` (R140): nothing for an empty box, one segment for a box one cell wide or high,
otherwise four edges. -/
def drawRect (x y : Int) (w h : Nat) (c : Color) (s : State) : State :=
  if w = 0 ∨ h = 0 then s
  else if w = 1 ∨ h = 1 then drawLine x y (x + w - 1) (y + h - 1) c s
  else rectLoop x y (x + w - 1) (y + h - 1) c 4 (s.setEdge 0)

/-- `RECT` (R140). -/
def execRect (color : Nat) (s : State) : Host.Outcome State Fault Refusal :=
  .next (finish (drawRect (pointX s) (pointY s) (sizeW s) (sizeH s) (maskColor color) (zeroCounters s)))

/-! ### Filled rectangle -/

/-- `n` plots along the row from the column cursor on (R145). -/
def fillCols (c : Color) : Nat → State → State
  | 0, s => s
  | n + 1, s =>
    fillCols c n
      ((plot s.work.fill.col s.work.fill.row c s).setFill
        { s.work.fill with col := s.work.fill.col + 1 })

/-- `n` rows from the row cursor on, each `w` cells from column `x` (R145). -/
def fillRows (x : Int) (w : Nat) (c : Color) : Nat → State → State
  | 0, s => s
  | n + 1, s =>
    fillRows x w c n
      ((fillCols c w (s.setFill { s.work.fill with col := x })).setFill
        { col := x + w, row := s.work.fill.row + 1 })

/-- The body of `FILLRECT` (R145): row-major, `y` outer, `x` inner. -/
def drawFill (x y : Int) (w h : Nat) (c : Color) (s : State) : State :=
  fillRows x w c h (s.setFill { row := y, col := x })

/-- `FILLRECT` (R145). -/
def execFillrect (color : Nat) (s : State) : Host.Outcome State Fault Refusal :=
  .next (finish (drawFill (pointX s) (pointY s) (sizeW s) (sizeH s) (maskColor color) (zeroCounters s)))

/-! ### Circle -/

/-- A point of the grid's plane. -/
structure Point where
  x : Int
  y : Int
  deriving DecidableEq, Repr

/-- The eight symmetric points of one iteration of `Circle`, in the order of R150. -/
def octant (x0 y0 x y : Int) : Nat → Point
  | 0 => { x := x0 + x, y := y0 + y }
  | 1 => { x := x0 - x, y := y0 + y }
  | 2 => { x := x0 + x, y := y0 - y }
  | 3 => { x := x0 - x, y := y0 - y }
  | 4 => { x := x0 + y, y := y0 + x }
  | 5 => { x := x0 - y, y := y0 + x }
  | 6 => { x := x0 + y, y := y0 - x }
  | _ => { x := x0 - y, y := y0 - x }

/-- `n` symmetric points from the point index on (R150). -/
def circlePoints (x0 y0 : Int) (c : Color) : Nat → State → State
  | 0, s => s
  | n + 1, s =>
    let p := octant x0 y0 s.work.circle.x s.work.circle.y s.work.circle.point
    circlePoints x0 y0 c n
      ((plot p.x p.y c s).setCircle { s.work.circle with point := s.work.circle.point + 1 })

/-- The updates after the eight plots (R150): `y` first, `2*y + 1` with the new `y`; when `err` is
positive, `x` is decremented and `2*x + 1` uses the new `x`. -/
def circleStep (v : CircleVars) : CircleVars :=
  let y := v.y + 1
  let err := v.err + 2 * y + 1
  if err > 0 then { x := v.x - 1, y := y, err := err - (2 * (v.x - 1) + 1), point := 0 }
  else { x := v.x, y := y, err := err, point := 0 }

/-- The loop of `Circle` (R150): `x >= y` is tested before every iteration. -/
def circleLoop (x0 y0 : Int) (c : Color) : Nat → State → State
  | 0, s => s
  | n + 1, s =>
    if s.work.circle.x ≥ s.work.circle.y then
      circleLoop x0 y0 c n
        ((circlePoints x0 y0 c 8 (s.setCircle { s.work.circle with point := 0 })).setCircle
          (circleStep s.work.circle))
    else s

/-- The start of `Circle` (R150). -/
def circleStart (r : Nat) : CircleVars := { x := r, y := 0, err := 0, point := 0 }

/-- `Circle(x0, y0, r, c)` (R150). At most `r + 1` iterations, since `y` rises by 1 and `x` never
rises (R152); one more call to leave by the test (log 15). -/
def drawCircle (x0 y0 : Int) (r : Nat) (c : Color) (s : State) : State :=
  circleLoop x0 y0 c (r + 2) (s.setCircle (circleStart r))

/-- `CIRCLE` (R151). -/
def execCircle (color : Nat) (s : State) : Host.Outcome State Fault Refusal :=
  .next (finish (drawCircle (pointX s) (pointY s) (radius s) (maskColor color) (zeroCounters s)))

end Sys2Proof.Machine
end

