-- ==== Sys2Proof/Machine/Dispatch.lean ====
section
/-! DEFINITION. The meaning of every command: what the engine does at one step while it runs it. -/

namespace Sys2Proof.Machine

def exec (i : Instr) (s : State) : Host.Outcome State Fault Refusal :=
  match i with
  | .nop => Sys2Proof.Machine.execNop s
  | .clear => Sys2Proof.Machine.execClear s
  | .setpix color => Sys2Proof.Machine.execSetpix color s
  | .getpix => Sys2Proof.Machine.execGetpix s
  | .line color => Sys2Proof.Machine.execLine color s
  | .rect color => Sys2Proof.Machine.execRect color s
  | .fillrect color => Sys2Proof.Machine.execFillrect color s
  | .circle color => Sys2Proof.Machine.execCircle color s
  | .flush => Sys2Proof.Machine.execFlush s
  | .reserved9 => Sys2Proof.Machine.execReserved9 s
  | .reservedAB op => Sys2Proof.Machine.execReservedAB op s
  | .reservedCF op => Sys2Proof.Machine.execReservedCF op s

end Sys2Proof.Machine
end

