-- ==== Sys2Proof/Machine/Reset.lean ====
section
/-! DEFINITION. The reset input and the reset clear (`70_reset_and_hazards.md` R210 to R213). -/

namespace Sys2Proof.Machine

/-- `fb` when `RST` is released: every cell unspecified (R40, R211), a free value each (log 3). -/
def unspecifiedFb (cfg : Config) (draw : Nat) : Memory :=
  (List.range cfg.cells).foldl (fun m i => Memory.write m i (Config.unspecifiedCell draw i)) []

/-- `RST` asserted and released, as one step (R187, R210, R211): every register, the latch and
`SNK_VALID` at their reset values, the reset clear about to run, `fb` unspecified, the running
command abandoned (R213). The accepted transfers stand (R165). The one held host access is not
performed; the platform bus aborts or retries it (R213, log 12). What the host has yet to issue,
what it has read, and the turns are not the FBR's. -/
def applyReset (s : State) : State :=
  { State.reset with
    cfg := s.cfg
    fb := unspecifiedFb s.cfg s.freeDraws
    trace := s.trace
    program := s.program
    pending := if s.cfg.heldRetried then s.pending else none
    reads := s.reads
    turns := s.turns
    freeDraws := s.freeDraws + 1 }

/-- The reset clear (R212): every cell OFF as `CLEAR` does, then `eng_state <- IDLE`, `BUSY <- 0`. -/
def resetClear (s : State) : State := finish (clearCells s)

end Sys2Proof.Machine
end

