-- ==== Sys2Proof/Machine/Agents.lean ====
section
/-! DEFINITION. One step of each agent (`60_exceptions.md` R187), and which agent moves. -/

namespace Sys2Proof.Machine

/-- The host's step. A held access completes once `BUSY = 0` and until then has no effect (R60).
Otherwise the host issues its next line: an access the FBR does not respond to (R52) is not its own
and faults (log 10); a held one becomes the outstanding access; any other completes. `WAIT` reads
`STATUS` and stays until `BUSY = 0` (R92). A host with nothing to issue does nothing (R188). -/
def hostTurn (s : State) : Host.Outcome State Fault Refusal :=
  match s.pending with
  | some a => if s.busy then .next s else .next (complete a { s with pending := none })
  | none =>
    match s.program with
    | [] => .next s
    | .wait :: rest =>
      .next (recordRead (statusWord s.busy) { s with program := if s.busy then s.program else rest })
    | .access a :: rest =>
      if inWindow s.cfg a.addr then
        if held s a then .next { s with program := rest, pending := some a }
        else .next (complete a { s with program := rest })
      else .fault .outsideWindow

/-- The engine's step: nothing while idle (R188, R192), the reset clear (R212), or one step of the
latched command (R38). -/
def engineTurn (s : State) : Host.Outcome State Fault Refusal :=
  match s.eng with
  | .idle => .next s
  | .clearing => .next (resetClear s)
  | .running => exec (decode s.latch.word) s

/-- One step of an agent. -/
def agentTurn (a : Agent) (s : State) : Host.Outcome State Fault Refusal :=
  match a with
  | .host => hostTurn s
  | .engine => engineTurn s
  | .sink => .next (sinkAccept s)
  | .reset => .next (applyReset s)

/-- The agent that moves next: the head of `turns`. With no turn left, DESIGN CHOICE (log 6): the
engine while it has work it can do, otherwise the host; the sink accepts and `RST` comes only by a
turn. -/
def nextTurn (s : State) : Agent :=
  match s.turns with
  | a :: _ => a
  | [] => if s.busy && !s.snk.valid then .engine else .host

/-- `s` with the `CMD` word `w` latched and about to run: the reset clear, if it had not run yet,
done; no transfer offered; the next turn the engine's (log 16). -/
def loadCommand (w : Word) (s : State) : State :=
  let s1 := if s.eng = .clearing then resetClear s else s
  let s2 := startCommand w (s1.setSnk { s1.snk with valid := false })
  s2.setTurns (if s2.turns = [] then [] else .engine :: s2.turns)

end Sys2Proof.Machine
end

