-- ==== Sys2Proof/Machine/Step.lean ====
section
/-! DEFINITION. One step of the machine, and where it finds the command it runs. -/

namespace Sys2Proof.Machine

/-- One step: the next agent takes its turn, and the turn is spent. There is no FBR whose parameters
are outside their range (R8, log 11). -/
def step (s : State) : Host.Outcome State Fault Refusal :=
  if s.cfg.legal then agentTurn (nextTurn s) (s.setTurns s.turns.tail)
  else .refused .illegalConfig

/-- The FBR fetches nothing (R34): the command it runs is the one in its latch (R38). `s` with the
table row's word accepted as a `CMD` write, so that the very next step runs it (log 16). -/
def State.withFetchWord (s : State) (nbits w : Nat) : State :=
  loadCommand (BitVec.ofNat 32 (w % 2 ^ nbits)) s

end Sys2Proof.Machine
end

