-- ==== Sys2Proof/Machine/Assembly.lean ====
section
/-! DEFINITION. The assembly notation: packing of operands (R84, R85) and the expansion of the
pseudo-instructions into host accesses (R89, R90, R91, R92). -/

namespace Sys2Proof.Machine

/-- One half of an operand word: a coordinate mod 2^16 (R84). -/
def packCoord (v : Int) : Half := BitVec.ofInt 16 v

/-- `{y,x}`: a signed point as `ARG0` or `ARG1` (R84, R90). -/
def packPoint (x y : Int) : Word := packCoord y ++ packCoord x

/-- `{h,w}`: a size as `ARG1` (R85). -/
def packSize (w h : Nat) : Word := BitVec.ofNat 16 h ++ BitVec.ofNat 16 w

/-- A radius as `ARG1` (R85). -/
def packRadius (r : Nat) : Word := BitVec.ofNat 32 r

/-- The offset of a register (R23). -/
def Reg.offset : Reg → Nat
  | .id => 0x00
  | .status => 0x04
  | .cmd => 0x08
  | .arg0 => 0x0C
  | .arg1 => 0x10
  | .pixdata => 0x14
  | .plotcnt => 0x18
  | .wrcnt => 0x1C

/-- `WR <reg>, <imm32>` (R89). -/
def wr (cfg : Config) (r : Reg) (w : Word) : HostOp :=
  .access (.write (cfg.base + r.offset) .word w)

/-- `RD <reg>` (R89). -/
def rd (cfg : Config) (r : Reg) : HostOp := .access (.read (cfg.base + r.offset) .word)

/-- The pseudo-instructions of R90, and `WAIT` (R92). -/
inductive Pseudo where
  | nop
  | clear
  | setpix (x y : Int) (c : Nat)
  | getpix (x y : Int)
  | line (x0 y0 x1 y1 : Int) (c : Nat)
  | rect (x y : Int) (w h c : Nat)
  | fillrect (x y : Int) (w h c : Nat)
  | circle (x0 y0 : Int) (r c : Nat)
  | flush
  | wait
  deriving DecidableEq, Repr

/-- The expansion table of R90; the last write is `CMD` with `(c << 8) | OP`. -/
def expand (cfg : Config) : Pseudo → List HostOp
  | .nop => [wr cfg .cmd (commandWord 0x0 0)]
  | .clear => [wr cfg .cmd (commandWord 0x1 0)]
  | .setpix x y c => [wr cfg .arg0 (packPoint x y), wr cfg .cmd (commandWord 0x2 c)]
  | .getpix x y =>
    [wr cfg .arg0 (packPoint x y), wr cfg .cmd (commandWord 0x3 0), rd cfg .pixdata]
  | .line x0 y0 x1 y1 c =>
    [wr cfg .arg0 (packPoint x0 y0), wr cfg .arg1 (packPoint x1 y1), wr cfg .cmd (commandWord 0x4 c)]
  | .rect x y w h c =>
    [wr cfg .arg0 (packPoint x y), wr cfg .arg1 (packSize w h), wr cfg .cmd (commandWord 0x5 c)]
  | .fillrect x y w h c =>
    [wr cfg .arg0 (packPoint x y), wr cfg .arg1 (packSize w h), wr cfg .cmd (commandWord 0x6 c)]
  | .circle x0 y0 r c =>
    [wr cfg .arg0 (packPoint x0 y0), wr cfg .arg1 (packRadius r), wr cfg .cmd (commandWord 0x7 c)]
  | .flush => [wr cfg .cmd (commandWord 0x8 0)]
  | .wait => [.wait]

end Sys2Proof.Machine
end

