-- ==== Sys2Proof/Machine/PlotSeq.lean ====
section
/-! DEFINITION. The plot sequence of each drawing command as a list of points, for the statements
about them (`41_raster.md`: "the plot sequence given here is normative in full"). The machine does
not use these lists: its loops run on the engine's working variables (Machine/Raster.lean). -/

namespace Sys2Proof.Machine

/-- `Plot` at each point of a list, in order (R111). -/
def plotAll (c : Color) : List Point → State → State
  | [], s => s
  | p :: ps, s => plotAll c ps (plot p.x p.y c s)

/-- The point a line stands at. -/
def LineVars.point (v : LineVars) : Point := { x := v.x, y := v.y }

/-- The plots of `Line` from given working variables on, at most as many as the first argument says
(R130). -/
def linePath (x1 y1 : Int) : Nat → LineVars → List Point
  | 0, _ => []
  | n + 1, v => v.point :: if v.x = x1 ∧ v.y = y1 then [] else linePath x1 y1 n (lineStep v)

/-- The plots of `Line(x0, y0, x1, y1, c)` in order (R130). -/
def linePlots (x0 y0 x1 y1 : Int) : List Point :=
  linePath x1 y1 (lineBound (lineStart x0 y0 x1 y1)) (lineStart x0 y0 x1 y1)

/-- The plots of one edge. -/
def Edge.plots (e : Edge) : List Point := linePlots e.x0 e.y0 e.x1 e.y1

/-- The plots of `RECT` in order (R140). -/
def rectPlots (x y : Int) (w h : Nat) : List Point :=
  if w = 0 ∨ h = 0 then []
  else if w = 1 ∨ h = 1 then linePlots x y (x + w - 1) (y + h - 1)
  else
    linePlots x y (x + w - 1) y ++ linePlots (x + w - 1) y (x + w - 1) (y + h - 1) ++
      linePlots (x + w - 1) (y + h - 1) x (y + h - 1) ++ linePlots x (y + h - 1) x y

/-- The plots of one row of a filled rectangle (R145). -/
def fillRow (x y : Int) (w : Nat) : List Point :=
  (List.range w).map fun (i : Nat) => { x := x + (i : Int), y := y }

/-- The plots of `FILLRECT` in order: row-major (R145). -/
def fillPlots (x y : Int) (w h : Nat) : List Point :=
  (List.range h).flatMap fun (j : Nat) => fillRow x (y + (j : Int)) w

/-- The eight plots of one iteration of `Circle` (R150). -/
def octantPlots (x0 y0 : Int) (v : CircleVars) : List Point :=
  (List.range 8).map (octant x0 y0 v.x v.y)

/-- The working variables at the start of each iteration of `Circle`, at most as many as the first
argument says (R150). -/
def circleStates : Nat → CircleVars → List CircleVars
  | 0, _ => []
  | n + 1, v => if v.x ≥ v.y then v :: circleStates n (circleStep v) else []

/-- The iterations of `Circle` for radius `r` (R150). -/
def circleIterations (r : Nat) : List CircleVars := circleStates (r + 2) (circleStart r)

/-- `n(r)`: the number of iterations (R151, R152). -/
def circleCount (r : Nat) : Nat := (circleIterations r).length

/-- The plots of `Circle(x0, y0, r, c)` in order (R150). -/
def circlePlots (x0 y0 : Int) (r : Nat) : List Point :=
  (circleIterations r).flatMap (octantPlots x0 y0)

/-- How many points of a list are in range: what `WRCNT` counts (R31). -/
def countInRange (cfg : Config) (ps : List Point) : Nat := ps.countP fun p => inRange cfg p.x p.y

/-- The outline of the box `(x, y, w, h)` of R140: a cell of the box on its first or last column or
row. -/
def onOutline (x y : Int) (w h : Nat) (p : Point) : Prop :=
  x ≤ p.x ∧ p.x ≤ x + w - 1 ∧ y ≤ p.y ∧ p.y ≤ y + h - 1 ∧
    (p.x = x ∨ p.x = x + w - 1 ∨ p.y = y ∨ p.y = y + h - 1)

/-- The span of `(x, y, w, h)` of R145, `[x, x+w-1] x [y, y+h-1]`. -/
def inSpan (x y : Int) (w h : Nat) (p : Point) : Prop :=
  x ≤ p.x ∧ p.x ≤ x + w - 1 ∧ y ≤ p.y ∧ p.y ≤ y + h - 1

/-- How many indexes of the side `0..side-1` lie in the span of `n` from `x` on: one dimension of
the clipping of R145. -/
def spanInGrid (side : Nat) (x : Int) (n : Nat) : Nat :=
  (min (side : Int) (x + n) - max 0 x).toNat

end Sys2Proof.Machine
end

