-- ==== Sys2Proof/Safety.lean ====
section
/-! DEFINITION. The terms the statements are made in: the invariant of the machine, frames, what a
run shows, and which states look alike. -/

namespace Sys2Proof.Machine

/-- The encoding of a command: every `CMD` word with this `OP` decodes to it, with the word's `COLOR`
field as its colour where it has one (R80, R86). -/
def SelectedBy (op : BitVec 4) (command : Nat → Instr) : Prop :=
  ∀ w : Word, cmdOp w = op → decode w = command (cmdColor w).toNat

/-- What holds in every state from reset on. -/
structure MachineInv (s : State) : Prop where
  /-- The parameters are legal (R8). -/
  legal : s.cfg.legal = true
  /-- `fb` is in canonical form. -/
  fbWf : s.fb.wf = true
  /-- `fb` lists cells of the grid only (R20). -/
  fbInGrid : ∀ p ∈ s.fb, p.1 < s.cfg.cells
  /-- `BUSY` is 1 exactly while the engine runs a command or the reset clear (R25). -/
  busyIff : s.busy = true ↔ s.eng ≠ .idle
  /-- `WRCNT <= PLOTCNT` (R31). -/
  counters : s.wrcnt ≤ s.plotcnt
  /-- `PIXDATA` is a colour or the sentinel (R29). -/
  pixdataLegal : s.pixdata = pixdataSentinel ∨ ∃ c : Color, s.pixdata = pixdataOfCell c
  /-- While a command runs, the latched operands are what `ARG0` and `ARG1` hold (R38). -/
  latched : s.eng = .running → s.latch.arg0 = s.arg0 ∧ s.latch.arg1 = s.arg1
  /-- The sink port is driven by a running `FLUSH` only, with the cell under the cursor (R160, R163). -/
  sinkDriven : s.snk.valid = true →
    s.eng = .running ∧ s.latch.op = 0x8#4 ∧ s.work.cursor < s.cfg.cells ∧
      s.snk.payload = transferAt s.cfg s.fb s.work.cursor
  /-- A running `FLUSH` has passed at most all cells. -/
  flushCursor : s.eng = .running → s.latch.op = 0x8#4 → s.work.cursor ≤ s.cfg.cells
  /-- Every accepted transfer names a cell of the grid (R161). -/
  traceInGrid : ∀ t ∈ s.trace, t.x.toNat < s.cfg.fbW ∧ t.y.toNat < s.cfg.fbH
  /-- The outstanding access is one that can be held, in the window (R52, R60). -/
  pendingHeld : ∀ a, s.pending = some a → inWindow s.cfg a.addr = true ∧ neverHeld s.cfg a = false

/-- The frame of a drawing command that goes from `s` to `t`: it changes `fb`, the two counters and
the working variables, and it ends (`eng_state` IDLE, `BUSY` 0); every other field stays. -/
def DrawingFrame (s t : State) : Prop :=
  t = { s with
        fb := t.fb, plotcnt := t.plotcnt, wrcnt := t.wrcnt, work := t.work
        eng := .idle, busy := false }

/-- The engine is quiescent (R215). -/
def quiescent (s : State) : Bool :=
  !s.busy && decide (s.eng = .idle) && !s.snk.valid

/-- A run is over: the host's accesses are complete and the FBR is quiescent (R215). -/
def runOver (s : State) : Bool :=
  s.program.isEmpty && s.pending.isNone && quiescent s

/-- The observed result of a run (R215): the reads, the accepted transfers, the final `fb` and
registers. DESIGN CHOICE (log 22): R215 does not list the registers; here they are the five that hold
a value of their own, since at the end of a run `ID` is fixed by the parameters (R24), `STATUS` is 0
(R25) and `CMD` reads 0 (R26). The polls of `WAIT` stand among the reads (log 7). -/
structure Observation where
  reads : List Word
  trace : List Transfer
  fb : Memory
  arg0 : Word
  arg1 : Word
  pixdata : Word
  plotcnt : Word
  wrcnt : Word
  deriving DecidableEq, Repr

/-- What a run that stands at `s` has shown. -/
def observe (s : State) : Observation :=
  { reads := s.reads, trace := s.trace, fb := s.fb, arg0 := s.arg0, arg1 := s.arg1
    pixdata := s.pixdata, plotcnt := s.plotcnt, wrcnt := s.wrcnt }

/-- Two states that differ in the working variables only, and not in the cell cursor while a command
runs: no host access tells them apart (R37, U2). -/
structure SameVisible (s t : State) : Prop where
  fields : t = { s with work := t.work }
  cursor : s.eng = .running → t.work.cursor = s.work.cursor

/-- Two outcomes of a step that are alike: both next states with `R` between them, or the same stop. -/
def OutcomesRelated (R : State → State → Prop) :
    Host.Outcome State Fault Refusal → Host.Outcome State Fault Refusal → Prop
  | .next s, .next t => R s t
  | .fault a, .fault b => a = b
  | .refused a, .refused b => a = b
  | _, _ => False

/-- The transfers of a whole `FLUSH` of `fb`: every cell, `y` outer, `x` inner (R160). -/
def rowMajor (cfg : Config) (fb : Memory) : List Transfer :=
  (List.range cfg.fbH).flatMap fun (y : Nat) =>
    (List.range cfg.fbW).map fun (x : Nat) =>
      { x := BitVec.ofNat 8 x, y := BitVec.ofNat 8 y, color := fb.read (cellIndex cfg x y) }

/-- A `FLUSH` of the contents `fb` is under way at `s`, whose trace was `past` when it began: the sink
has accepted as many transfers of `rowMajor` as the cursor says, in order, and what is offered is the
next one (R160, R162; the cursor is log 8's). -/
structure FlushUnderWay (past : List Transfer) (fb : Memory) (s : State) : Prop where
  running : s.eng = .running
  busy : s.busy = true
  op : s.latch.op = 0x8#4
  contents : s.fb = fb
  cursor : s.work.cursor ≤ s.cfg.cells
  offered : s.snk.valid = true →
    s.work.cursor < s.cfg.cells ∧ s.snk.payload = transferAt s.cfg fb s.work.cursor
  sent : s.trace = past ++ (rowMajor s.cfg fb).take s.work.cursor

/-- That `FLUSH` has just ended at `s`: completed, every transfer accepted (R160), or abandoned by
`RST`, a prefix of them accepted (R165). -/
def FlushOver (past : List Transfer) (fb : Memory) (s : State) : Prop :=
  s.snk.valid = false ∧
    ((s.eng = .idle ∧ s.busy = false ∧ s.fb = fb ∧ s.trace = past ++ rowMajor s.cfg fb) ∨
      (s.eng = .clearing ∧ ∃ k, s.trace = past ++ (rowMajor s.cfg fb).take k))

/-- The expansion of `p` (R90), issued by the host from an idle FBR in `n` turns of its own, leaves the
engine running with the command `i`, the operands as `operands` says, and the lines `left` of the
expansion not issued yet; nothing else changes. -/
def ExpansionStarts (p : Pseudo) (n : Nat) (left : Config → List HostOp) (i : Instr)
    (operands : State → Prop) : Prop :=
  ∀ (s : State) (rest : List HostOp) (ts : List Agent), s.cfg.legal = true → s.busy = false →
    s.pending = none → s.program = expand s.cfg p ++ rest → s.turns = List.replicate n .host ++ ts →
    ∃ t : State, Host.Core.run Sys2Proof.core n s = .next t ∧ operands t ∧
      exec (decode t.latch.word) t = exec i t ∧
      t = { s with
            arg0 := t.arg0, arg1 := t.arg1, latch := t.latch, work := t.work, eng := .running
            busy := true, program := left s.cfg ++ rest, turns := ts }

/-- The turns of a `FLUSH` whose sink accepts at once: engine and sink for each cell, then the
engine's final step (R187). -/
def flushTurns : Nat → List Agent
  | 0 => [.engine]
  | n + 1 => .engine :: .sink :: flushTurns n

end Sys2Proof.Machine
end

