-- ==== Sys2Proof/Certificates/Slice0/Obligations.lean ====
section
/-! DEFINITION. The statements about the model, each from the numbered rules of spec/. -/

open Sys2Proof Sys2Proof.Machine

/-! ### Encoding -/

/-- R80, R86, R87, R90: no bit of an encoding is dropped. Decoding the encoded word of a well-formed
command gives the command, with every operand at every value its field admits. -/
def Obligations.DecodeEncodeRoundTrip : Prop :=
  ∀ i : Instr, i.wf = true → decode (encode i) = i

/-- R80, R86: encoding what was decoded keeps `OP` and, for a command with a colour, the whole `COLOR`
field; the decoder answers well-formed commands only. -/
def Obligations.EncodeDecodeKeepsFields : Prop :=
  ∀ w : Word, (decode w).wf = true ∧ decode (encode (decode w)) = decode w ∧
    cmdOp (encode (decode w)) = cmdOp w ∧
    ∀ color, decode w = .setpix color ∨ decode w = .line color ∨ decode w = .rect color ∨
        decode w = .fillrect color ∨ decode w = .circle color →
      color = (cmdColor w).toNat ∧ cmdColor (encode (decode w)) = cmdColor w

/-- R86: the decode is total, and every 32-bit `CMD` value selects exactly one row, the one of the
command the decoder answers. -/
def Obligations.EveryWordSelectsOneRow : Prop :=
  ∀ w : Word, (opcodeRows.filter fun r => r.matchesWord w).map OpcodeRow.mnemonic = [(decode w).mnemonic]

/-- R88: `CMD[3:0]` and nothing else selects the command. -/
def Obligations.OpAloneSelectsCommand : Prop :=
  ∀ v w : Word, cmdOp v = cmdOp w → (decode v).mnemonic = (decode w).mnemonic

/-- R93, R87: words written out from the spec's encodings decode to what they stand for. -/
def Obligations.SpecWordsDecode : Prop :=
  decode 0x00000202 = .setpix 2 ∧ decode 0x00000702 = .setpix 7 ∧ decode 0x00000003 = .getpix ∧
  decode 0x00000104 = .line 1 ∧ decode 0x00000105 = .rect 1 ∧ decode 0x00000206 = .fillrect 2 ∧
  decode 0x00000107 = .circle 1 ∧ decode 0x00000008 = .flush ∧ decode 0x00000001 = .clear ∧
  decode 0xFFFFFF00 = .nop ∧ decode 0x00000309 = .reserved9 ∧ decode 0x0000000A = .reservedAB 10 ∧
  decode 0x0000030F = .reservedCF 15

/-- R82, R87: two words with the same `OP` and the same `CMD[9:8]` have the same effect in every
state: `CMD[7:4]`, `CMD[15:10]` and `CMD[31:16]` have none. -/
def Obligations.IgnoredBitsHaveNoEffect : Prop :=
  ∀ (v w : Word) (s : State), cmdOp v = cmdOp w → v.extractLsb' 8 2 = w.extractLsb' 8 2 →
    exec (decode v) s = exec (decode w) s

/-- R82: the colour operand is the `COLOR` field masked to its low two bits. -/
def Obligations.ColourIsMasked : Prop :=
  ∀ color : Nat, (maskColor color).toNat = color &&& 0x03

/-! ### A step runs the latched command -/

/-- R38, R187: when the engine moves while it runs a command, the step is `exec` of the command that
the latch decodes to; around it, only the turn is spent. -/
def Obligations.StepRunsLatchedCommand : Prop :=
  ∀ s : State, s.cfg.legal = true → nextTurn s = .engine → s.eng = .running →
    step s = exec (decode s.latch.word) (s.setTurns s.turns.tail)

/-- R38, R56: the latch keeps all of a `CMD` word that matters: the command it decodes to acts as the
command of the word that was written. -/
def Obligations.LatchedWordActsAsWritten : Prop :=
  ∀ (w : Word) (s t : State),
    exec (decode (startCommand w s).latch.word) t = exec (decode w) t

/-- R34, R38 (the placing of the word is log 16's): a table word placed by `withFetchWord` is decoded
and run by the very next step. -/
def Obligations.FetchWordRunsTableInstr : Prop :=
  ∀ (s : State) (nbits w : Nat) (i : Instr), s.cfg.legal = true →
    decodeTableWord nbits w = some i →
    step (s.withFetchWord nbits w) =
      exec i ((s.withFetchWord nbits w).setTurns (s.withFetchWord nbits w).turns.tail)

/-! ### The framebuffer commands -/

/-- R112, R117: `NOP` and the reserved opcodes end the command and change nothing else. -/
def Obligations.NopAndReservedOnlyEnd : Prop :=
  SelectedBy 0x0 (fun _ => .nop) ∧ SelectedBy 0x9 (fun _ => .reserved9) ∧
  SelectedBy 0xA (fun _ => .reservedAB 0xA) ∧ SelectedBy 0xB (fun _ => .reservedAB 0xB) ∧
  SelectedBy 0xC (fun _ => .reservedCF 0xC) ∧ SelectedBy 0xD (fun _ => .reservedCF 0xD) ∧
  SelectedBy 0xE (fun _ => .reservedCF 0xE) ∧ SelectedBy 0xF (fun _ => .reservedCF 0xF) ∧
  ∀ (s : State) (op : Nat),
    exec .nop s = .next { s with eng := .idle, busy := false } ∧
    exec .reserved9 s = .next { s with eng := .idle, busy := false } ∧
    exec (.reservedAB op) s = .next { s with eng := .idle, busy := false } ∧
    exec (.reservedCF op) s = .next { s with eng := .idle, busy := false }

/-- R113: `CLEAR` turns every cell of the grid OFF and ends; the counters, `PIXDATA` and everything
else stay (the working variables apart). -/
def Obligations.ClearTurnsEveryCellOff : Prop :=
  SelectedBy 0x1 (fun _ => .clear) ∧
  ∀ s : State, ∃ t : State, exec .clear s = .next t ∧
    (s.fb.wf = true → ∀ x y, inRange s.cfg x y = true → t.cell x y = Color.off) ∧
    t = { s with fb := t.fb, work := t.work, eng := .idle, busy := false }

/-- R113 turns every cell OFF; that a buffer of OFF cells is the empty list is the model's, not the
spec's: the canonical list form is log 14's, an unlisted cell reads OFF by log 2 (both DESIGN CHOICE).
Over the invariant's premises on `fb`. -/
def Obligations.ClearEmptiesCanonicalBuffer : Prop :=
  ∀ s : State, s.fb.wf = true → (∀ p ∈ s.fb, p.1 < s.cfg.cells) →
    ∃ t : State, exec .clear s = .next t ∧ t.fb = []

/-- R110, R111: `Plot` counts every call; in range it writes the cell, out of range it is dropped.
Every other cell and field stays. -/
def Obligations.PlotIsBoundsChecked : Prop :=
  ∀ (x y : Int) (c : Color) (s : State),
    (inRange s.cfg x y = true ↔ 0 ≤ x ∧ x < s.cfg.fbW ∧ 0 ≤ y ∧ y < s.cfg.fbH) ∧
    (inRange s.cfg x y = false → plot x y c s = { s with plotcnt := s.plotcnt + 1 }) ∧
    (inRange s.cfg x y = true →
      plot x y c s = { s with plotcnt := s.plotcnt + 1, wrcnt := s.wrcnt + 1, fb := (plot x y c s).fb } ∧
      (s.fb.wf = true → ∀ x' y', inRange s.cfg x' y' = true →
        (plot x y c s).cell x' y' = if x' = x ∧ y' = y then c else s.cell x' y'))

/-- R114: `SETPIX` makes one plot at the latched point, in the masked colour. `PLOTCNT` ends at 1,
`WRCNT` at 1 or 0; an out-of-range point leaves `fb` unchanged; every other cell and field stays. -/
def Obligations.SetpixWritesMaskedColour : Prop :=
  SelectedBy 0x2 .setpix ∧
  ∀ (s : State) (color : Nat), ∃ t : State, exec (.setpix color) s = .next t ∧
    t.plotcnt = 1 ∧
    t.wrcnt = (if inRange s.cfg (pointX s) (pointY s) then 1 else 0) ∧
    (inRange s.cfg (pointX s) (pointY s) = false → t.fb = s.fb) ∧
    (s.fb.wf = true → ∀ x y, inRange s.cfg x y = true →
      t.cell x y = if x = pointX s ∧ y = pointY s then maskColor color else s.cell x y) ∧
    DrawingFrame s t

/-- R115, R29: `GETPIX` writes `PIXDATA` only: the cell's colour with `OOR = 0`, or out of range the
sentinel 0x0000_0100, `OOR = 1` and colour 0. -/
def Obligations.GetpixReadsCellOrSentinel : Prop :=
  SelectedBy 0x3 (fun _ => .getpix) ∧
  ∀ s : State, ∃ w : Word,
    exec .getpix s = .next { s with pixdata := w, eng := .idle, busy := false } ∧
    (inRange s.cfg (pointX s) (pointY s) = true →
      w = (s.cell (pointX s) (pointY s)).setWidth 32 ∧
      pcolorOf w = s.cell (pointX s) (pointY s) ∧ oorOf w = false) ∧
    (inRange s.cfg (pointX s) (pointY s) = false →
      w = 0x00000100 ∧ pcolorOf w = 0 ∧ oorOf w = true)

/-- R114, R115 (the source's property S1): after a `SETPIX` in range, `GETPIX` of the same point gives
the masked colour. -/
def Obligations.SetThenGetGivesMaskedColour : Prop :=
  ∀ (s t : State) (color : Nat), s.fb.wf = true → inRange s.cfg (pointX s) (pointY s) = true →
    exec (.setpix color) s = .next t →
    ∃ u : State, exec .getpix t = .next u ∧ u.pixdata = (maskColor color).setWidth 32

/-! ### Operands -/

/-- R83: points are read as signed halves, sizes and the radius as unsigned halves, of the latched
words. -/
def Obligations.OperandsAreHalvesOfTheLatch : Prop :=
  ∀ s : State,
    pointX s = (s.latch.arg0.extractLsb' 0 16).toInt ∧ pointY s = (s.latch.arg0.extractLsb' 16 16).toInt ∧
    endX s = (s.latch.arg1.extractLsb' 0 16).toInt ∧ endY s = (s.latch.arg1.extractLsb' 16 16).toInt ∧
    sizeW s = (s.latch.arg1.extractLsb' 0 16).toNat ∧ sizeH s = (s.latch.arg1.extractLsb' 16 16).toNat ∧
    radius s = (s.latch.arg1.extractLsb' 0 16).toNat

/-- R38, R63: a running command reads its operands from the latch only; what `ARG0` and `ARG1` hold
changes neither its effect nor is it changed. -/
def Obligations.CommandsReadTheLatchOnly : Prop :=
  ∀ (i : Instr) (s t : State) (a b : Word), exec i s = .next t →
    t.arg0 = s.arg0 ∧ t.arg1 = s.arg1 ∧
    exec i { s with arg0 := a, arg1 := b } = .next { t with arg0 := a, arg1 := b }

/-- R84, R85: a point packed into an operand word is read back as itself, over the whole encodable
range, and so are a size and a radius. -/
def Obligations.PackedOperandsReadBack : Prop :=
  (∀ x y : Int, -32768 ≤ x → x ≤ 32767 → -32768 ≤ y → y ≤ 32767 →
    sext16 (lowHalf (packPoint x y)) = x ∧ sext16 (highHalf (packPoint x y)) = y) ∧
  (∀ w h : Nat, w ≤ 65535 → h ≤ 65535 →
    zext16 (lowHalf (packSize w h)) = w ∧ zext16 (highHalf (packSize w h)) = h) ∧
  (∀ r : Nat, r ≤ 65535 → zext16 (lowHalf (packRadius r)) = r)

/-- R90: the register writes that each command's pseudo-instruction expands to, issued by the host one
after another from an idle FBR, leave the engine running with the command, the operands and the colour
of the pseudo-instruction; `GETPIX` has its `RD PIXDATA` left. -/
def Obligations.ExpansionLoadsOperands : Prop :=
  ∀ (x y x1 y1 : Int) (w h r c : Nat), -32768 ≤ x → x ≤ 32767 → -32768 ≤ y → y ≤ 32767 →
    -32768 ≤ x1 → x1 ≤ 32767 → -32768 ≤ y1 → y1 ≤ 32767 → w ≤ 65535 → h ≤ 65535 → r ≤ 65535 →
    c ≤ 255 →
    ExpansionStarts .nop 1 (fun _ => []) .nop (fun _ => True) ∧
    ExpansionStarts .clear 1 (fun _ => []) .clear (fun _ => True) ∧
    ExpansionStarts (.setpix x y c) 2 (fun _ => []) (.setpix c) (fun t => pointX t = x ∧ pointY t = y) ∧
    ExpansionStarts (.getpix x y) 2 (fun cfg => [rd cfg .pixdata]) .getpix
      (fun t => pointX t = x ∧ pointY t = y) ∧
    ExpansionStarts (.line x y x1 y1 c) 3 (fun _ => []) (.line c)
      (fun t => pointX t = x ∧ pointY t = y ∧ endX t = x1 ∧ endY t = y1) ∧
    ExpansionStarts (.rect x y w h c) 3 (fun _ => []) (.rect c)
      (fun t => pointX t = x ∧ pointY t = y ∧ sizeW t = w ∧ sizeH t = h) ∧
    ExpansionStarts (.fillrect x y w h c) 3 (fun _ => []) (.fillrect c)
      (fun t => pointX t = x ∧ pointY t = y ∧ sizeW t = w ∧ sizeH t = h) ∧
    ExpansionStarts (.circle x y r c) 3 (fun _ => []) (.circle c)
      (fun t => pointX t = x ∧ pointY t = y ∧ radius t = r) ∧
    ExpansionStarts .flush 1 (fun _ => []) .flush (fun _ => True)

/-- R90, R60, R115: the trailing `RD PIXDATA` of `GETPIX x, y` returns this `GETPIX`'s result, whether
the host issues it after the command (`k = 0`) or while the command still runs, where it is held for
any number of host turns. -/
def Obligations.GetpixExpansionReadsItsResult : Prop :=
  ∀ (s : State) (x y : Int) (k : Nat) (rest : List HostOp) (ts : List Agent),
    -32768 ≤ x → x ≤ 32767 → -32768 ≤ y → y ≤ 32767 →
    s.cfg.legal = true → s.busy = false → s.pending = none →
    s.program = expand s.cfg (.getpix x y) ++ rest →
    s.turns = [.host, .host] ++ List.replicate k .host ++ [.engine, .host] ++ ts →
    ∃ t : State, Host.Core.run Sys2Proof.core (k + 4) s = .next t ∧
      t.pixdata = (if inRange s.cfg x y then (s.cell x y).setWidth 32 else 0x00000100) ∧
      t = { s with
            arg0 := packPoint x y, latch := t.latch, work := t.work, pixdata := t.pixdata, eng := .idle
            reads := s.reads ++ [t.pixdata], program := rest, turns := ts }

/-! ### The scan-conversion commands -/

/-- R130, R131: `LINE` completes in every state. It makes `max(dx, dy) + 1` plots, the cells of its
Bresenham sequence take the masked colour, `WRCNT` counts the plots in range, and every other cell and
field stays. For a line whose `2*err` passes the 18 bits of R9, that the updates of R130 go on over exact
integers is the model's choice between the two rules (log 20, DESIGN CHOICE, unsafe). -/
def Obligations.LineDrawsBresenham : Prop :=
  SelectedBy 0x4 .line ∧
  ∀ (s : State) (color : Nat), ∃ t : State, exec (.line color) s = .next t ∧
    t.plotcnt.toNat = max (endX s - pointX s).natAbs (endY s - pointY s).natAbs + 1 ∧
    t.wrcnt.toNat = countInRange s.cfg (linePlots (pointX s) (pointY s) (endX s) (endY s)) ∧
    (s.fb.wf = true → ∀ x y, inRange s.cfg x y = true →
      t.cell x y = if { x := x, y := y } ∈ linePlots (pointX s) (pointY s) (endX s) (endY s)
        then maskColor color else s.cell x y) ∧
    DrawingFrame s t

/-- R132, which the spec derives from R130 and checked on -7..7 only: a line makes exactly
`max(dx, dy) + 1` plots, from its start to its endpoint, none twice; each moves one cell along
the major axis and at most one along the minor, both when `dx = dy`. For a line whose `2*err` passes the
18 bits of R9 it rests on the exact integers of log 20 (DESIGN CHOICE, unsafe). -/
def Obligations.LineSequenceIsConnected : Prop :=
  (∀ x0 y0 x1 y1 : Int,
    (linePlots x0 y0 x1 y1).length = max (x1 - x0).natAbs (y1 - y0).natAbs + 1 ∧
    (linePlots x0 y0 x1 y1).head? = some { x := x0, y := y0 } ∧
    (linePlots x0 y0 x1 y1).getLast? = some { x := x1, y := y1 } ∧
    (linePlots x0 y0 x1 y1).Nodup ∧
    ∀ (k : Nat) (p q : Point), (linePlots x0 y0 x1 y1)[k]? = some p →
      (linePlots x0 y0 x1 y1)[k + 1]? = some q →
      ((y1 - y0).natAbs ≤ (x1 - x0).natAbs → (q.x - p.x).natAbs = 1 ∧ (q.y - p.y).natAbs ≤ 1) ∧
      ((x1 - x0).natAbs ≤ (y1 - y0).natAbs → (q.y - p.y).natAbs = 1 ∧ (q.x - p.x).natAbs ≤ 1)) ∧
  linePlots 0 0 5 0 = [⟨0, 0⟩, ⟨1, 0⟩, ⟨2, 0⟩, ⟨3, 0⟩, ⟨4, 0⟩, ⟨5, 0⟩] ∧
  linePlots 0 0 3 3 = [⟨0, 0⟩, ⟨1, 1⟩, ⟨2, 2⟩, ⟨3, 3⟩]

/-- R132, R152 (the bounds are log 15's): the loops of `Line` and `Circle` end by their own tests. The
machine's loop with any larger bound leaves the very state that `Line` and `Circle` leave, and plots
the same sequence. For a line whose `2*err` passes the 18 bits of R9 it rests on the exact integers of
log 20 (DESIGN CHOICE, unsafe). -/
def Obligations.LoopsEndByTheirOwnTests : Prop :=
  (∀ (s : State) (x0 y0 x1 y1 : Int) (c : Color) (n : Nat), lineBound (lineStart x0 y0 x1 y1) ≤ n →
    lineLoop x1 y1 c n (s.setLine (lineStart x0 y0 x1 y1)) = drawLine x0 y0 x1 y1 c s ∧
    linePath x1 y1 n (lineStart x0 y0 x1 y1) = linePlots x0 y0 x1 y1) ∧
  (∀ (s : State) (x0 y0 : Int) (c : Color) (r n : Nat), r + 2 ≤ n →
    circleLoop x0 y0 c n (s.setCircle (circleStart r)) = drawCircle x0 y0 r c s ∧
    circleStates n (circleStart r) = circleIterations r)

/-- R140: `RECT` completes in every state. Nothing is plotted for an empty box; a box one cell wide or
high is one segment; any other makes `2*w + 2*h` plots. The outline takes the masked colour, `WRCNT`
counts the plots in range, and every other cell and field stays. -/
def Obligations.RectDrawsOutline : Prop :=
  SelectedBy 0x5 .rect ∧
  ∀ (s : State) (color : Nat), ∃ t : State, exec (.rect color) s = .next t ∧
    (sizeW s = 0 ∨ sizeH s = 0 → t.plotcnt = 0 ∧ t.wrcnt = 0 ∧ t.fb = s.fb) ∧
    (1 ≤ sizeW s → 1 ≤ sizeH s → sizeW s = 1 ∨ sizeH s = 1 →
      t.plotcnt.toNat = max (sizeW s) (sizeH s)) ∧
    (2 ≤ sizeW s → 2 ≤ sizeH s → t.plotcnt.toNat = 2 * sizeW s + 2 * sizeH s) ∧
    t.wrcnt.toNat = countInRange s.cfg (rectPlots (pointX s) (pointY s) (sizeW s) (sizeH s)) ∧
    (s.fb.wf = true → ∀ x y, inRange s.cfg x y = true →
      (onOutline (pointX s) (pointY s) (sizeW s) (sizeH s) { x := x, y := y } →
        t.cell x y = maskColor color) ∧
      (¬ onOutline (pointX s) (pointY s) (sizeW s) (sizeH s) { x := x, y := y } →
        t.cell x y = s.cell x y)) ∧
    DrawingFrame s t

/-- R145: `FILLRECT` completes in every state. `PLOTCNT` is `w*h`, `WRCNT` the number of cells of the
span in the grid; those cells take the masked colour, and every other cell and field stays. -/
def Obligations.FillrectFillsClippedSpan : Prop :=
  SelectedBy 0x6 .fillrect ∧
  ∀ (s : State) (color : Nat), ∃ t : State, exec (.fillrect color) s = .next t ∧
    t.plotcnt.toNat = sizeW s * sizeH s ∧
    t.wrcnt.toNat =
      (spanInGrid s.cfg.fbW (pointX s) (sizeW s) * spanInGrid s.cfg.fbH (pointY s) (sizeH s)) ∧
    (s.fb.wf = true → ∀ x y, inRange s.cfg x y = true →
      (inSpan (pointX s) (pointY s) (sizeW s) (sizeH s) { x := x, y := y } →
        t.cell x y = maskColor color) ∧
      (¬ inSpan (pointX s) (pointY s) (sizeW s) (sizeH s) { x := x, y := y } →
        t.cell x y = s.cell x y)) ∧
    DrawingFrame s t

/-- R150, R151: `CIRCLE` completes in every state. `PLOTCNT` is `8 * n(r)`, the cells of its sequence
take the masked colour, `WRCNT` counts the plots in range; at `r = 0` all eight fall on the centre.
Every other cell and field stays. -/
def Obligations.CircleDrawsMidpointCircle : Prop :=
  SelectedBy 0x7 .circle ∧
  ∀ (s : State) (color : Nat), ∃ t : State, exec (.circle color) s = .next t ∧
    t.plotcnt.toNat = 8 * circleCount (radius s) ∧
    t.wrcnt.toNat = countInRange s.cfg (circlePlots (pointX s) (pointY s) (radius s)) ∧
    (radius s = 0 → t.plotcnt = 8 ∧
      t.wrcnt = (if inRange s.cfg (pointX s) (pointY s) then 8 else 0)) ∧
    (s.fb.wf = true → ∀ x y, inRange s.cfg x y = true →
      t.cell x y = if { x := x, y := y } ∈ circlePlots (pointX s) (pointY s) (radius s)
        then maskColor color else s.cell x y) ∧
    DrawingFrame s t

/-- R152: the plotted set of a circle is symmetric under the eight reflections and rotations about the
centre. -/
def Obligations.CircleIsEightWaySymmetric : Prop :=
  ∀ (x0 y0 dx dy : Int) (r : Nat),
    ({ x := x0 + dx, y := y0 + dy } : Point) ∈ circlePlots x0 y0 r →
    ∀ k, k < 8 → octant x0 y0 dx dy k ∈ circlePlots x0 y0 r

/-- R152: `n(r)` for r = 0..20. -/
def Obligations.CircleIterationCounts : Prop :=
  (List.range 21).map circleCount = [1, 1, 2, 2, 3, 4, 4, 5, 6, 6, 7, 8, 9, 9, 10, 11, 11, 12, 13, 13, 14]

/-- R152, for every radius and not only those the spec checked: the octant arc goes from `(r, 0)` in
steps of one row and at most one column to a cell within one of the diagonal, so the eight arcs join
without a gap. -/
def Obligations.CircleArcHasNoGap : Prop :=
  ∀ r : Nat,
    (circleIterations r).head? = some (circleStart r) ∧
    (∀ (k : Nat) (v w : CircleVars), (circleIterations r)[k]? = some v →
      (circleIterations r)[k + 1]? = some w →
      w.y = v.y + 1 ∧ (w.x = v.x ∨ w.x = v.x - 1) ∧ w.y ≤ w.x) ∧
    ∀ v : CircleVars, (circleIterations r).getLast? = some v → v.y ≤ v.x ∧ v.x ≤ v.y + 1

/-! ### All commands -/

/-- R25, R112: every command but `FLUSH` is one step to `BUSY = 0`, in every state. -/
def Obligations.CommandsCompleteInOneStep : Prop :=
  ∀ (i : Instr) (s : State), i ≠ .flush →
    ∃ t : State, exec i s = .next t ∧ t.busy = false ∧ t.eng = .idle ∧ t.cfg = s.cfg ∧
      t.latch = s.latch ∧ t.program = s.program ∧ t.pending = s.pending ∧ t.reads = s.reads ∧
      t.turns = s.turns

/-- R30, R116: a command that is no drawing command leaves both counters, and a drawing command's
counters do not depend on what they held. -/
def Obligations.CountersDescribeLastDrawing : Prop :=
  (∀ s t : State, exec .nop s = .next t ∨ exec .clear s = .next t ∨ exec .getpix s = .next t ∨
      exec .flush s = .next t ∨ exec .reserved9 s = .next t ∨
      (∃ op, exec (.reservedAB op) s = .next t ∨ exec (.reservedCF op) s = .next t) →
    t.plotcnt = s.plotcnt ∧ t.wrcnt = s.wrcnt) ∧
  ∀ (i : Instr) (s : State) (p q : Word),
    (∃ color, i = .setpix color ∨ i = .line color ∨ i = .rect color ∨ i = .fillrect color ∨
      i = .circle color) →
    exec i { s with plotcnt := p, wrcnt := q } = exec i s

/-- R31: after every drawing command, from any state, `WRCNT <= PLOTCNT`. -/
def Obligations.WrcntNeverExceedsPlotcnt : Prop :=
  ∀ (i : Instr) (s t : State) (color : Nat),
    i = .setpix color ∨ i = .line color ∨ i = .rect color ∨ i = .fillrect color ∨ i = .circle color →
    exec i s = .next t → t.wrcnt.toNat ≤ t.plotcnt.toNat

/-- R58: every command but `FLUSH`, run a second time with unchanged operands, leaves `fb`, `PIXDATA`,
`PLOTCNT` and `WRCNT` exactly as the first run left them. -/
def Obligations.CommandsAreIdempotent : Prop :=
  ∀ (i : Instr) (s t : State), i ≠ .flush → s.fb.wf = true → exec i s = .next t →
    ∃ u : State, exec i t = .next u ∧ u.fb = t.fb ∧ u.pixdata = t.pixdata ∧
      u.plotcnt = t.plotcnt ∧ u.wrcnt = t.wrcnt

/-- R163: no command but `FLUSH` drives the sink port or reaches the sink. -/
def Obligations.OnlyFlushDrivesSink : Prop :=
  ∀ (i : Instr) (s t : State), i ≠ .flush → exec i s = .next t → t.snk = s.snk ∧ t.trace = s.trace

/-- R37, U2: nothing a host or the sink sees depends on the working variables of an idle engine: two
states alike but for them stay so at every step. -/
def Obligations.WorkingVariablesUnobservable : Prop :=
  ∀ s t : State, SameVisible s t → OutcomesRelated SameVisible (step s) (step t)

/-! ### FLUSH and the sink -/

/-- R160, R161, R162 (one offer a step is log 8's reading of R187): a running `FLUSH` with nothing
offered offers the cell under its cursor, holds an offer stable until it is accepted, and ends after
the last cell; it leaves `fb` and every register alone. -/
def Obligations.FlushOffersThenWaits : Prop :=
  SelectedBy 0x8 (fun _ => .flush) ∧
  ∀ s : State,
    (s.snk.valid = false → s.work.cursor < s.cfg.cells →
      exec .flush s = .next { s with snk := { valid := true, payload :=
        { x := BitVec.ofNat 8 (s.work.cursor % s.cfg.fbW)
          y := BitVec.ofNat 8 (s.work.cursor / s.cfg.fbW)
          color := s.fb.read s.work.cursor } } }) ∧
    (s.snk.valid = true → exec .flush s = .next s) ∧
    (s.snk.valid = false → s.cfg.cells ≤ s.work.cursor →
      exec .flush s = .next { s with eng := .idle, busy := false })

/-- R162, R39: the sink accepts an offered transfer exactly once, as it was offered, and nothing else
happens; with none offered its readiness does nothing. That `SNK_VALID` falls at every acceptance and
that the cursor moves on there is log 8's reading (DEDUCED): R39 has it fall when the sink accepts,
R162 lowers it after the last transfer. -/
def Obligations.SinkAcceptsOfferedTransferOnce : Prop :=
  ∀ s : State, s.cfg.legal = true → nextTurn s = .sink →
    (s.snk.valid = true →
      step s = .next { s with
        trace := s.trace ++ [s.snk.payload]
        snk := { s.snk with valid := false }
        work := { s.work with cursor := s.work.cursor + 1 }
        turns := s.turns.tail }) ∧
    (s.snk.valid = false → step s = .next { s with turns := s.turns.tail })

/-- R160, R22: a `FLUSH` whose sink accepts every transfer completes, makes exactly `FB_W * FB_H`
transfers, row-major, of the contents `fb` had at its start, and alters neither `fb` nor a register.
With a sink that accepts at once it takes `2 * FB_W * FB_H + 1` steps; with any sink delays, idle sink
edges and host turns between (R188), it completes within every list of turns that has those steps in
it. The steps themselves, and the start at cursor 0, are log 8's reading of R187 (DEDUCED). -/
def Obligations.FlushSendsBufferRowMajor : Prop :=
  (∀ (s : State) (ts : List Agent), s.cfg.legal = true → s.eng = .running → s.latch.op = 0x8#4 →
    s.work.cursor = 0 → s.snk.valid = false → s.turns = flushTurns s.cfg.cells ++ ts →
    ∃ t : State, Host.Core.run Sys2Proof.core (2 * s.cfg.cells + 1) s = .next t ∧
      t.trace = s.trace ++ rowMajor s.cfg s.fb ∧
      (rowMajor s.cfg s.fb).length = s.cfg.fbW * s.cfg.fbH ∧
      t.eng = .idle ∧ t.busy = false ∧ t.snk.valid = false ∧
      t = { s with eng := .idle, busy := false, trace := t.trace, snk := t.snk, work := t.work, turns := ts }) ∧
  ∀ (s : State) (us ts : List Agent), s.cfg.legal = true → s.busy = true → s.eng = .running →
    s.latch.op = 0x8#4 → s.work.cursor = 0 → s.snk.valid = false →
    (∀ a, .access a ∈ s.program → inWindow s.cfg a.addr = true) →
    s.turns = us ++ ts → (flushTurns s.cfg.cells).Sublist us → .reset ∉ us →
    ∃ (n : Nat) (t : State), n ≤ us.length ∧ Host.Core.run Sys2Proof.core n s = .next t ∧
      t.trace = s.trace ++ rowMajor s.cfg s.fb ∧ t.snk.valid = false ∧
      t = { s with
            eng := .idle, busy := false, trace := t.trace, snk := t.snk, work := t.work
            turns := t.turns, program := t.program, pending := t.pending, reads := t.reads }

/-- R162, R165, R213, in every order of the agents' turns (R187): a `CMD` write of `FLUSH` begins a
`FLUSH`; every step from one under way leaves it under way, the transfers accepted so far the first of
the row-major sequence in order, or ends it, completed with the whole sequence sent or abandoned by
`RST` and by nothing else with a prefix sent. So after any number of steps it is under way or has ended
so on the way. (The cursor that counts the accepted transfers is log 8's.) -/
def Obligations.FlushTransfersArePrefix : Prop :=
  (∀ (s : State) (w : Word), cmdOp w = 0x8#4 → s.snk.valid = false →
    FlushUnderWay s.trace s.fb (startCommand w s)) ∧
  (∀ (past : List Transfer) (fb : Memory) (s t : State), FlushUnderWay past fb s → step s = .next t →
    (FlushUnderWay past fb t ∨ FlushOver past fb t) ∧ (t.eng = .clearing → nextTurn s = .reset)) ∧
  ∀ (past : List Transfer) (fb : Memory) (n : Nat) (s t : State), FlushUnderWay past fb s →
    Host.Core.run Sys2Proof.core n s = .next t →
    FlushUnderWay past fb t ∨
      ∃ (m : Nat) (u : State), m ≤ n ∧ Host.Core.run Sys2Proof.core m s = .next u ∧ FlushOver past fb u

/-- R164: while the sink accepts nothing and no reset comes, a running `FLUSH` never completes, after
any number of steps: `BUSY` stays 1, and the sink receives nothing. -/
def Obligations.FlushHangsWithoutSink : Prop :=
  ∀ (n : Nat) (s t : State), s.busy = true → s.eng = .running → s.latch.op = 0x8#4 →
    s.work.cursor < s.cfg.cells → (∀ a ∈ s.turns, a = .host ∨ a = .engine) →
    Host.Core.run Sys2Proof.core n s = .next t →
    t.busy = true ∧ t.eng = .running ∧ t.trace = s.trace ∧ t.fb = s.fb

/-! ### The register window -/

/-- R24: `ID`, at offset 0x00, is `MAGIC` 0xFB00 over `FB_H` over `FB_W`, in every state; it is never
held; 0xFB00_1020 for the reference configuration. -/
def Obligations.IdHoldsMagicAndGridSize : Prop :=
  (∀ s : State, s.cfg.legal = true →
    (readReg s .id).extractLsb' 16 16 = 0xFB00#16 ∧
    ((readReg s .id).extractLsb' 8 8).toNat = s.cfg.fbH ∧
    ((readReg s .id).extractLsb' 0 8).toNat = s.cfg.fbW ∧
    readData s s.cfg.base .word = readReg s .id ∧ neverHeld s.cfg (.read s.cfg.base .word) = true) ∧
  idWord Config.reference = 0xFB001020

/-- R23 to R32: what a 32-bit aligned read at each offset of the window returns. -/
def Obligations.ReadsFollowTheRegisterMap : Prop :=
  ∀ (s : State) (k : Nat), k ≤ 0xFF →
    readData s (s.cfg.base + k) .word =
      if k = 0x00 then idWord s.cfg
      else if k = 0x04 then (if s.busy then 1 else 0)
      else if k = 0x08 then 0
      else if k = 0x0C then s.arg0
      else if k = 0x10 then s.arg1
      else if k = 0x14 then s.pixdata
      else if k = 0x18 then s.plotcnt
      else if k = 0x1C then s.wrcnt
      else 0

/-- R56: no read has a side effect; a completed read hands its value to the host and changes nothing
else. -/
def Obligations.ReadsHaveNoSideEffect : Prop :=
  ∀ (s : State) (addr : Nat) (width : AccessWidth),
    complete (.read addr width) s = { s with reads := s.reads ++ [readData s addr width] }

/-- R23, R27, R28, R32, R56: what a 32-bit write at each offset of the window does: `CMD` starts the
command with the latch of R38 and sets `BUSY`, `ARG0` and `ARG1` keep the word whole, and every other
offset ignores it. -/
def Obligations.WritesFollowTheRegisterMap : Prop :=
  ∀ (s : State) (k : Nat) (w : Word), k ≤ 0xFF →
    complete (.write (s.cfg.base + k) .word w) s =
      if k = 0x08 then
        { s with
          latch := { op := w.extractLsb' 0 4, color := w.extractLsb' 8 2, arg0 := s.arg0, arg1 := s.arg1 }
          busy := true, eng := .running, work := { s.work with cursor := 0 } }
      else if k = 0x0C then { s with arg0 := w }
      else if k = 0x10 then { s with arg1 := w }
      else s

/-- R53, R54: a narrow or misaligned access completes without effect; as a read it returns 0. -/
def Obligations.NarrowOrMisalignedHasNoEffect : Prop :=
  ∀ (s : State) (k : Nat) (width : AccessWidth) (w : Word), k ≤ 0xFF →
    width ≠ .word ∨ k % 4 ≠ 0 →
    complete (.write (s.cfg.base + k) width w) s = s ∧
    complete (.read (s.cfg.base + k) width) s = { s with reads := s.reads ++ [0] }

/-- R60, R61: the accesses that are never held are the 32-bit reads of `ID` and `STATUS`, and no
other (that a narrow one is held is log 9's reading). -/
def Obligations.OnlyStatusAndIdReadsAreNeverHeld : Prop :=
  ∀ (cfg : Config) (k : Nat) (width : AccessWidth) (w : Word), k ≤ 0xFF →
    (neverHeld cfg (.read (cfg.base + k) width) = true ↔ width = .word ∧ (k = 0x00 ∨ k = 0x04)) ∧
    neverHeld cfg (.write (cfg.base + k) width w) = false

/-- R60 (taking a held access into `pending` as a host step of its own is log 7's DESIGN CHOICE; that a
narrow read at the offset of `STATUS` or `ID` is in the held class is log 9's reading): an access that
arrives while `BUSY = 1` waits without effect until `BUSY = 0`, and then completes as if it had arrived at that moment. -/
def Obligations.HeldAccessWaitsThenCompletes : Prop :=
  ∀ (s : State) (a : Access), s.cfg.legal = true → nextTurn s = .host →
    (∀ rest, s.busy = true → s.pending = none → s.program = .access a :: rest →
      inWindow s.cfg a.addr = true → neverHeld s.cfg a = false →
      step s = .next { s with program := rest, pending := some a, turns := s.turns.tail }) ∧
    (s.busy = true → s.pending = some a → step s = .next { s with turns := s.turns.tail }) ∧
    (s.busy = false → s.pending = some a →
      step s = .next (complete a { s with pending := none, turns := s.turns.tail }))

/-- R51, R61: an access that is not held completes when it is issued: any access while idle, and a
read of `STATUS` or `ID` at any time. -/
def Obligations.UnheldAccessCompletesAtOnce : Prop :=
  ∀ (s : State) (a : Access) (rest : List HostOp), s.cfg.legal = true → nextTurn s = .host →
    s.pending = none → s.program = .access a :: rest → inWindow s.cfg a.addr = true →
    s.busy = false ∨ neverHeld s.cfg a = true →
    step s = .next (complete a { s with program := rest, turns := s.turns.tail })

/-- R92, R25: `WAIT` reads `STATUS` at each of its polls, stays while `BUSY = 1`, and ends at the
first poll that sees 0. That `WAIT` is one line of the host's program and that each poll stands among
the host's reads is log 7's DESIGN CHOICE. -/
def Obligations.WaitPollsStatus : Prop :=
  ∀ (s : State) (rest : List HostOp), s.cfg.legal = true → nextTurn s = .host → s.pending = none →
    s.program = .wait :: rest →
    (s.busy = true → step s = .next { s with reads := s.reads ++ [1], turns := s.turns.tail }) ∧
    (s.busy = false →
      step s = .next { s with reads := s.reads ++ [0], program := rest, turns := s.turns.tail })

/-- Log 10 (R52 says to which addresses the FBR responds): an access outside the window faults. -/
def Obligations.AccessOutsideWindowFaults : Prop :=
  ∀ (s : State) (a : Access) (rest : List HostOp), s.cfg.legal = true → nextTurn s = .host →
    s.pending = none → s.program = .access a :: rest →
    (a.addr < s.cfg.base ∨ s.cfg.base + 0xFF < a.addr) → step s = .fault .outsideWindow

/-- R180: no command and no access in the window stops the machine: every step from legal parameters
answers a next state, unless the host is about to issue an access outside the window. -/
def Obligations.NothingFailsInsideTheWindow : Prop :=
  ∀ s : State, s.cfg.legal = true →
    (∀ a rest, s.program = .access a :: rest → inWindow s.cfg a.addr = true) →
    ∃ t : State, step s = .next t

/-- Log 11 (R8 gives the legal range): a state with parameters outside their range takes no step. -/
def Obligations.IllegalParametersAreRefused : Prop :=
  ∀ s : State,
    (s.cfg.fbW = 0 ∨ 255 < s.cfg.fbW ∨ s.cfg.fbH = 0 ∨ 255 < s.cfg.fbH ∨ s.cfg.base % 256 ≠ 0) ↔
    step s = .refused .illegalConfig

/-! ### Reset and the invariant -/

/-- R40: the registers, latch, engine and sink port at the end of reset. -/
def Obligations.ResetValues : Prop :=
  State.reset.busy = true ∧ State.reset.eng = .clearing ∧ State.reset.snk.valid = false ∧
  State.reset.arg0 = 0 ∧ State.reset.arg1 = 0 ∧ State.reset.pixdata = 0 ∧ State.reset.plotcnt = 0 ∧
  State.reset.wrcnt = 0 ∧ State.reset.latch = { op := 0, color := 0, arg0 := 0, arg1 := 0 } ∧
  readReg State.reset .id = 0xFB001020

/-- R211, R213, R165: `RST` from any state leaves the registers, the latch and `SNK_VALID` at 0, the
reset clear about to run and `BUSY = 1`; a running command is abandoned; the transfers accepted before
stand; a held access is not performed. -/
def Obligations.ResetAbandonsEverything : Prop :=
  ∀ s : State, s.cfg.legal = true → nextTurn s = .reset → ∃ t : State, step s = .next t ∧
    t.arg0 = 0 ∧ t.arg1 = 0 ∧ t.pixdata = 0 ∧ t.plotcnt = 0 ∧ t.wrcnt = 0 ∧
    t.latch = { op := 0, color := 0, arg0 := 0, arg1 := 0 } ∧ t.snk.valid = false ∧
    t.eng = .clearing ∧ t.busy = true ∧ t.trace = s.trace ∧ t.reads = s.reads ∧
    t.program = s.program ∧ t.cfg = s.cfg ∧ (t.pending = none ∨ t.pending = s.pending)

/-- R212: whatever `fb` held, the reset clear leaves every cell OFF, the engine idle and `BUSY = 0`,
and changes neither counters nor `PIXDATA` nor anything else (the working variables apart). -/
def Obligations.ResetClearTurnsAllOff : Prop :=
  ∀ s : State, s.cfg.legal = true → nextTurn s = .engine → s.eng = .clearing →
    ∃ t : State, step s = .next t ∧
      (s.fb.wf = true → ∀ x y, inRange s.cfg x y = true → t.cell x y = Color.off) ∧
      t = { s with fb := t.fb, work := t.work, eng := .idle, busy := false, turns := s.turns.tail }

/-- The invariant holds at reset. -/
def Obligations.InvariantAtReset : Prop := MachineInv State.reset

/-- R8, R20, R25, R29, R31, R38, R52, R60, R161, R163: every step from a state with the invariant
leads to one with it: the parameters stay legal; `fb` keeps its canonical form and lists grid cells
only; `BUSY` is 1 exactly while the engine is not idle; `WRCNT <= PLOTCNT`; `PIXDATA` is a colour or
the sentinel; the latched operands are `ARG0` and `ARG1`; the sink port is driven by `FLUSH` only,
with the cell under its cursor. -/
def Obligations.StepKeepsInvariant : Prop :=
  ∀ s t : State, MachineInv s → step s = .next t → MachineInv t

/-- R162, R215: a step never changes the parameters, and what the sink accepted and the host read is
only ever added to. -/
def Obligations.StepOnlyExtendsObservations : Prop :=
  ∀ s t : State, step s = .next t →
    t.cfg = s.cfg ∧ s.trace.IsPrefix t.trace ∧ s.reads.IsPrefix t.reads
end

