-- ==== Sys2Proof/Laws/State.lean ====
section
/-! SUPPORT. One lemma per field per update, each true by unfolding: what every named update of State
changes and what it leaves. No later proof unfolds a record update. -/

namespace Sys2Proof.Machine

section
variable (s : State)

/-! ### `setFb` -/

@[simp] theorem setFb_cfg (m : Memory) : (s.setFb m).cfg = s.cfg := rfl
@[simp] theorem setFb_fb (m : Memory) : (s.setFb m).fb = m := rfl
@[simp] theorem setFb_busy (m : Memory) : (s.setFb m).busy = s.busy := rfl
@[simp] theorem setFb_arg0 (m : Memory) : (s.setFb m).arg0 = s.arg0 := rfl
@[simp] theorem setFb_arg1 (m : Memory) : (s.setFb m).arg1 = s.arg1 := rfl
@[simp] theorem setFb_pixdata (m : Memory) : (s.setFb m).pixdata = s.pixdata := rfl
@[simp] theorem setFb_plotcnt (m : Memory) : (s.setFb m).plotcnt = s.plotcnt := rfl
@[simp] theorem setFb_wrcnt (m : Memory) : (s.setFb m).wrcnt = s.wrcnt := rfl
@[simp] theorem setFb_eng (m : Memory) : (s.setFb m).eng = s.eng := rfl
@[simp] theorem setFb_latch (m : Memory) : (s.setFb m).latch = s.latch := rfl
@[simp] theorem setFb_work (m : Memory) : (s.setFb m).work = s.work := rfl
@[simp] theorem setFb_snk (m : Memory) : (s.setFb m).snk = s.snk := rfl
@[simp] theorem setFb_trace (m : Memory) : (s.setFb m).trace = s.trace := rfl
@[simp] theorem setFb_program (m : Memory) : (s.setFb m).program = s.program := rfl
@[simp] theorem setFb_pending (m : Memory) : (s.setFb m).pending = s.pending := rfl
@[simp] theorem setFb_reads (m : Memory) : (s.setFb m).reads = s.reads := rfl
@[simp] theorem setFb_turns (m : Memory) : (s.setFb m).turns = s.turns := rfl
@[simp] theorem setFb_freeDraws (m : Memory) : (s.setFb m).freeDraws = s.freeDraws := rfl

/-! ### `setPixdata` -/

@[simp] theorem setPixdata_cfg (w : Word) : (s.setPixdata w).cfg = s.cfg := rfl
@[simp] theorem setPixdata_fb (w : Word) : (s.setPixdata w).fb = s.fb := rfl
@[simp] theorem setPixdata_busy (w : Word) : (s.setPixdata w).busy = s.busy := rfl
@[simp] theorem setPixdata_arg0 (w : Word) : (s.setPixdata w).arg0 = s.arg0 := rfl
@[simp] theorem setPixdata_arg1 (w : Word) : (s.setPixdata w).arg1 = s.arg1 := rfl
@[simp] theorem setPixdata_pixdata (w : Word) : (s.setPixdata w).pixdata = w := rfl
@[simp] theorem setPixdata_plotcnt (w : Word) : (s.setPixdata w).plotcnt = s.plotcnt := rfl
@[simp] theorem setPixdata_wrcnt (w : Word) : (s.setPixdata w).wrcnt = s.wrcnt := rfl
@[simp] theorem setPixdata_eng (w : Word) : (s.setPixdata w).eng = s.eng := rfl
@[simp] theorem setPixdata_latch (w : Word) : (s.setPixdata w).latch = s.latch := rfl
@[simp] theorem setPixdata_work (w : Word) : (s.setPixdata w).work = s.work := rfl
@[simp] theorem setPixdata_snk (w : Word) : (s.setPixdata w).snk = s.snk := rfl
@[simp] theorem setPixdata_trace (w : Word) : (s.setPixdata w).trace = s.trace := rfl
@[simp] theorem setPixdata_program (w : Word) : (s.setPixdata w).program = s.program := rfl
@[simp] theorem setPixdata_pending (w : Word) : (s.setPixdata w).pending = s.pending := rfl
@[simp] theorem setPixdata_reads (w : Word) : (s.setPixdata w).reads = s.reads := rfl
@[simp] theorem setPixdata_turns (w : Word) : (s.setPixdata w).turns = s.turns := rfl
@[simp] theorem setPixdata_freeDraws (w : Word) : (s.setPixdata w).freeDraws = s.freeDraws := rfl

/-! ### `setWork` -/

@[simp] theorem setWork_cfg (w : Work) : (s.setWork w).cfg = s.cfg := rfl
@[simp] theorem setWork_fb (w : Work) : (s.setWork w).fb = s.fb := rfl
@[simp] theorem setWork_busy (w : Work) : (s.setWork w).busy = s.busy := rfl
@[simp] theorem setWork_arg0 (w : Work) : (s.setWork w).arg0 = s.arg0 := rfl
@[simp] theorem setWork_arg1 (w : Work) : (s.setWork w).arg1 = s.arg1 := rfl
@[simp] theorem setWork_pixdata (w : Work) : (s.setWork w).pixdata = s.pixdata := rfl
@[simp] theorem setWork_plotcnt (w : Work) : (s.setWork w).plotcnt = s.plotcnt := rfl
@[simp] theorem setWork_wrcnt (w : Work) : (s.setWork w).wrcnt = s.wrcnt := rfl
@[simp] theorem setWork_eng (w : Work) : (s.setWork w).eng = s.eng := rfl
@[simp] theorem setWork_latch (w : Work) : (s.setWork w).latch = s.latch := rfl
@[simp] theorem setWork_work (w : Work) : (s.setWork w).work = w := rfl
@[simp] theorem setWork_snk (w : Work) : (s.setWork w).snk = s.snk := rfl
@[simp] theorem setWork_trace (w : Work) : (s.setWork w).trace = s.trace := rfl
@[simp] theorem setWork_program (w : Work) : (s.setWork w).program = s.program := rfl
@[simp] theorem setWork_pending (w : Work) : (s.setWork w).pending = s.pending := rfl
@[simp] theorem setWork_reads (w : Work) : (s.setWork w).reads = s.reads := rfl
@[simp] theorem setWork_turns (w : Work) : (s.setWork w).turns = s.turns := rfl
@[simp] theorem setWork_freeDraws (w : Work) : (s.setWork w).freeDraws = s.freeDraws := rfl

/-! ### `setLine` -/

@[simp] theorem setLine_cfg (v : LineVars) : (s.setLine v).cfg = s.cfg := rfl
@[simp] theorem setLine_fb (v : LineVars) : (s.setLine v).fb = s.fb := rfl
@[simp] theorem setLine_busy (v : LineVars) : (s.setLine v).busy = s.busy := rfl
@[simp] theorem setLine_arg0 (v : LineVars) : (s.setLine v).arg0 = s.arg0 := rfl
@[simp] theorem setLine_arg1 (v : LineVars) : (s.setLine v).arg1 = s.arg1 := rfl
@[simp] theorem setLine_pixdata (v : LineVars) : (s.setLine v).pixdata = s.pixdata := rfl
@[simp] theorem setLine_plotcnt (v : LineVars) : (s.setLine v).plotcnt = s.plotcnt := rfl
@[simp] theorem setLine_wrcnt (v : LineVars) : (s.setLine v).wrcnt = s.wrcnt := rfl
@[simp] theorem setLine_eng (v : LineVars) : (s.setLine v).eng = s.eng := rfl
@[simp] theorem setLine_latch (v : LineVars) : (s.setLine v).latch = s.latch := rfl
@[simp] theorem setLine_work (v : LineVars) : (s.setLine v).work = { s.work with line := v } := rfl
@[simp] theorem setLine_snk (v : LineVars) : (s.setLine v).snk = s.snk := rfl
@[simp] theorem setLine_trace (v : LineVars) : (s.setLine v).trace = s.trace := rfl
@[simp] theorem setLine_program (v : LineVars) : (s.setLine v).program = s.program := rfl
@[simp] theorem setLine_pending (v : LineVars) : (s.setLine v).pending = s.pending := rfl
@[simp] theorem setLine_reads (v : LineVars) : (s.setLine v).reads = s.reads := rfl
@[simp] theorem setLine_turns (v : LineVars) : (s.setLine v).turns = s.turns := rfl
@[simp] theorem setLine_freeDraws (v : LineVars) : (s.setLine v).freeDraws = s.freeDraws := rfl

/-! ### `setEdge` -/

@[simp] theorem setEdge_cfg (k : Nat) : (s.setEdge k).cfg = s.cfg := rfl
@[simp] theorem setEdge_fb (k : Nat) : (s.setEdge k).fb = s.fb := rfl
@[simp] theorem setEdge_busy (k : Nat) : (s.setEdge k).busy = s.busy := rfl
@[simp] theorem setEdge_arg0 (k : Nat) : (s.setEdge k).arg0 = s.arg0 := rfl
@[simp] theorem setEdge_arg1 (k : Nat) : (s.setEdge k).arg1 = s.arg1 := rfl
@[simp] theorem setEdge_pixdata (k : Nat) : (s.setEdge k).pixdata = s.pixdata := rfl
@[simp] theorem setEdge_plotcnt (k : Nat) : (s.setEdge k).plotcnt = s.plotcnt := rfl
@[simp] theorem setEdge_wrcnt (k : Nat) : (s.setEdge k).wrcnt = s.wrcnt := rfl
@[simp] theorem setEdge_eng (k : Nat) : (s.setEdge k).eng = s.eng := rfl
@[simp] theorem setEdge_latch (k : Nat) : (s.setEdge k).latch = s.latch := rfl
@[simp] theorem setEdge_work (k : Nat) : (s.setEdge k).work = { s.work with edge := k } := rfl
@[simp] theorem setEdge_snk (k : Nat) : (s.setEdge k).snk = s.snk := rfl
@[simp] theorem setEdge_trace (k : Nat) : (s.setEdge k).trace = s.trace := rfl
@[simp] theorem setEdge_program (k : Nat) : (s.setEdge k).program = s.program := rfl
@[simp] theorem setEdge_pending (k : Nat) : (s.setEdge k).pending = s.pending := rfl
@[simp] theorem setEdge_reads (k : Nat) : (s.setEdge k).reads = s.reads := rfl
@[simp] theorem setEdge_turns (k : Nat) : (s.setEdge k).turns = s.turns := rfl
@[simp] theorem setEdge_freeDraws (k : Nat) : (s.setEdge k).freeDraws = s.freeDraws := rfl

/-! ### `setFill` -/

@[simp] theorem setFill_cfg (v : FillVars) : (s.setFill v).cfg = s.cfg := rfl
@[simp] theorem setFill_fb (v : FillVars) : (s.setFill v).fb = s.fb := rfl
@[simp] theorem setFill_busy (v : FillVars) : (s.setFill v).busy = s.busy := rfl
@[simp] theorem setFill_arg0 (v : FillVars) : (s.setFill v).arg0 = s.arg0 := rfl
@[simp] theorem setFill_arg1 (v : FillVars) : (s.setFill v).arg1 = s.arg1 := rfl
@[simp] theorem setFill_pixdata (v : FillVars) : (s.setFill v).pixdata = s.pixdata := rfl
@[simp] theorem setFill_plotcnt (v : FillVars) : (s.setFill v).plotcnt = s.plotcnt := rfl
@[simp] theorem setFill_wrcnt (v : FillVars) : (s.setFill v).wrcnt = s.wrcnt := rfl
@[simp] theorem setFill_eng (v : FillVars) : (s.setFill v).eng = s.eng := rfl
@[simp] theorem setFill_latch (v : FillVars) : (s.setFill v).latch = s.latch := rfl
@[simp] theorem setFill_work (v : FillVars) : (s.setFill v).work = { s.work with fill := v } := rfl
@[simp] theorem setFill_snk (v : FillVars) : (s.setFill v).snk = s.snk := rfl
@[simp] theorem setFill_trace (v : FillVars) : (s.setFill v).trace = s.trace := rfl
@[simp] theorem setFill_program (v : FillVars) : (s.setFill v).program = s.program := rfl
@[simp] theorem setFill_pending (v : FillVars) : (s.setFill v).pending = s.pending := rfl
@[simp] theorem setFill_reads (v : FillVars) : (s.setFill v).reads = s.reads := rfl
@[simp] theorem setFill_turns (v : FillVars) : (s.setFill v).turns = s.turns := rfl
@[simp] theorem setFill_freeDraws (v : FillVars) : (s.setFill v).freeDraws = s.freeDraws := rfl

/-! ### `setCircle` -/

@[simp] theorem setCircle_cfg (v : CircleVars) : (s.setCircle v).cfg = s.cfg := rfl
@[simp] theorem setCircle_fb (v : CircleVars) : (s.setCircle v).fb = s.fb := rfl
@[simp] theorem setCircle_busy (v : CircleVars) : (s.setCircle v).busy = s.busy := rfl
@[simp] theorem setCircle_arg0 (v : CircleVars) : (s.setCircle v).arg0 = s.arg0 := rfl
@[simp] theorem setCircle_arg1 (v : CircleVars) : (s.setCircle v).arg1 = s.arg1 := rfl
@[simp] theorem setCircle_pixdata (v : CircleVars) : (s.setCircle v).pixdata = s.pixdata := rfl
@[simp] theorem setCircle_plotcnt (v : CircleVars) : (s.setCircle v).plotcnt = s.plotcnt := rfl
@[simp] theorem setCircle_wrcnt (v : CircleVars) : (s.setCircle v).wrcnt = s.wrcnt := rfl
@[simp] theorem setCircle_eng (v : CircleVars) : (s.setCircle v).eng = s.eng := rfl
@[simp] theorem setCircle_latch (v : CircleVars) : (s.setCircle v).latch = s.latch := rfl
@[simp] theorem setCircle_work (v : CircleVars) :
    (s.setCircle v).work = { s.work with circle := v } := rfl
@[simp] theorem setCircle_snk (v : CircleVars) : (s.setCircle v).snk = s.snk := rfl
@[simp] theorem setCircle_trace (v : CircleVars) : (s.setCircle v).trace = s.trace := rfl
@[simp] theorem setCircle_program (v : CircleVars) : (s.setCircle v).program = s.program := rfl
@[simp] theorem setCircle_pending (v : CircleVars) : (s.setCircle v).pending = s.pending := rfl
@[simp] theorem setCircle_reads (v : CircleVars) : (s.setCircle v).reads = s.reads := rfl
@[simp] theorem setCircle_turns (v : CircleVars) : (s.setCircle v).turns = s.turns := rfl
@[simp] theorem setCircle_freeDraws (v : CircleVars) :
    (s.setCircle v).freeDraws = s.freeDraws := rfl

/-! ### `setCursor` -/

@[simp] theorem setCursor_cfg (k : Nat) : (s.setCursor k).cfg = s.cfg := rfl
@[simp] theorem setCursor_fb (k : Nat) : (s.setCursor k).fb = s.fb := rfl
@[simp] theorem setCursor_busy (k : Nat) : (s.setCursor k).busy = s.busy := rfl
@[simp] theorem setCursor_arg0 (k : Nat) : (s.setCursor k).arg0 = s.arg0 := rfl
@[simp] theorem setCursor_arg1 (k : Nat) : (s.setCursor k).arg1 = s.arg1 := rfl
@[simp] theorem setCursor_pixdata (k : Nat) : (s.setCursor k).pixdata = s.pixdata := rfl
@[simp] theorem setCursor_plotcnt (k : Nat) : (s.setCursor k).plotcnt = s.plotcnt := rfl
@[simp] theorem setCursor_wrcnt (k : Nat) : (s.setCursor k).wrcnt = s.wrcnt := rfl
@[simp] theorem setCursor_eng (k : Nat) : (s.setCursor k).eng = s.eng := rfl
@[simp] theorem setCursor_latch (k : Nat) : (s.setCursor k).latch = s.latch := rfl
@[simp] theorem setCursor_work (k : Nat) : (s.setCursor k).work = { s.work with cursor := k } := rfl
@[simp] theorem setCursor_snk (k : Nat) : (s.setCursor k).snk = s.snk := rfl
@[simp] theorem setCursor_trace (k : Nat) : (s.setCursor k).trace = s.trace := rfl
@[simp] theorem setCursor_program (k : Nat) : (s.setCursor k).program = s.program := rfl
@[simp] theorem setCursor_pending (k : Nat) : (s.setCursor k).pending = s.pending := rfl
@[simp] theorem setCursor_reads (k : Nat) : (s.setCursor k).reads = s.reads := rfl
@[simp] theorem setCursor_turns (k : Nat) : (s.setCursor k).turns = s.turns := rfl
@[simp] theorem setCursor_freeDraws (k : Nat) : (s.setCursor k).freeDraws = s.freeDraws := rfl

/-! ### `setSnk` -/

@[simp] theorem setSnk_cfg (p : SinkPort) : (s.setSnk p).cfg = s.cfg := rfl
@[simp] theorem setSnk_fb (p : SinkPort) : (s.setSnk p).fb = s.fb := rfl
@[simp] theorem setSnk_busy (p : SinkPort) : (s.setSnk p).busy = s.busy := rfl
@[simp] theorem setSnk_arg0 (p : SinkPort) : (s.setSnk p).arg0 = s.arg0 := rfl
@[simp] theorem setSnk_arg1 (p : SinkPort) : (s.setSnk p).arg1 = s.arg1 := rfl
@[simp] theorem setSnk_pixdata (p : SinkPort) : (s.setSnk p).pixdata = s.pixdata := rfl
@[simp] theorem setSnk_plotcnt (p : SinkPort) : (s.setSnk p).plotcnt = s.plotcnt := rfl
@[simp] theorem setSnk_wrcnt (p : SinkPort) : (s.setSnk p).wrcnt = s.wrcnt := rfl
@[simp] theorem setSnk_eng (p : SinkPort) : (s.setSnk p).eng = s.eng := rfl
@[simp] theorem setSnk_latch (p : SinkPort) : (s.setSnk p).latch = s.latch := rfl
@[simp] theorem setSnk_work (p : SinkPort) : (s.setSnk p).work = s.work := rfl
@[simp] theorem setSnk_snk (p : SinkPort) : (s.setSnk p).snk = p := rfl
@[simp] theorem setSnk_trace (p : SinkPort) : (s.setSnk p).trace = s.trace := rfl
@[simp] theorem setSnk_program (p : SinkPort) : (s.setSnk p).program = s.program := rfl
@[simp] theorem setSnk_pending (p : SinkPort) : (s.setSnk p).pending = s.pending := rfl
@[simp] theorem setSnk_reads (p : SinkPort) : (s.setSnk p).reads = s.reads := rfl
@[simp] theorem setSnk_turns (p : SinkPort) : (s.setSnk p).turns = s.turns := rfl
@[simp] theorem setSnk_freeDraws (p : SinkPort) : (s.setSnk p).freeDraws = s.freeDraws := rfl

/-! ### `setTurns` -/

@[simp] theorem setTurns_cfg (ts : List Agent) : (s.setTurns ts).cfg = s.cfg := rfl
@[simp] theorem setTurns_fb (ts : List Agent) : (s.setTurns ts).fb = s.fb := rfl
@[simp] theorem setTurns_busy (ts : List Agent) : (s.setTurns ts).busy = s.busy := rfl
@[simp] theorem setTurns_arg0 (ts : List Agent) : (s.setTurns ts).arg0 = s.arg0 := rfl
@[simp] theorem setTurns_arg1 (ts : List Agent) : (s.setTurns ts).arg1 = s.arg1 := rfl
@[simp] theorem setTurns_pixdata (ts : List Agent) : (s.setTurns ts).pixdata = s.pixdata := rfl
@[simp] theorem setTurns_plotcnt (ts : List Agent) : (s.setTurns ts).plotcnt = s.plotcnt := rfl
@[simp] theorem setTurns_wrcnt (ts : List Agent) : (s.setTurns ts).wrcnt = s.wrcnt := rfl
@[simp] theorem setTurns_eng (ts : List Agent) : (s.setTurns ts).eng = s.eng := rfl
@[simp] theorem setTurns_latch (ts : List Agent) : (s.setTurns ts).latch = s.latch := rfl
@[simp] theorem setTurns_work (ts : List Agent) : (s.setTurns ts).work = s.work := rfl
@[simp] theorem setTurns_snk (ts : List Agent) : (s.setTurns ts).snk = s.snk := rfl
@[simp] theorem setTurns_trace (ts : List Agent) : (s.setTurns ts).trace = s.trace := rfl
@[simp] theorem setTurns_program (ts : List Agent) : (s.setTurns ts).program = s.program := rfl
@[simp] theorem setTurns_pending (ts : List Agent) : (s.setTurns ts).pending = s.pending := rfl
@[simp] theorem setTurns_reads (ts : List Agent) : (s.setTurns ts).reads = s.reads := rfl
@[simp] theorem setTurns_turns (ts : List Agent) : (s.setTurns ts).turns = ts := rfl
@[simp] theorem setTurns_freeDraws (ts : List Agent) :
    (s.setTurns ts).freeDraws = s.freeDraws := rfl

/-! ### `zeroCounters` -/

@[simp] theorem zeroCounters_cfg : (zeroCounters s).cfg = s.cfg := rfl
@[simp] theorem zeroCounters_fb : (zeroCounters s).fb = s.fb := rfl
@[simp] theorem zeroCounters_busy : (zeroCounters s).busy = s.busy := rfl
@[simp] theorem zeroCounters_arg0 : (zeroCounters s).arg0 = s.arg0 := rfl
@[simp] theorem zeroCounters_arg1 : (zeroCounters s).arg1 = s.arg1 := rfl
@[simp] theorem zeroCounters_pixdata : (zeroCounters s).pixdata = s.pixdata := rfl
@[simp] theorem zeroCounters_plotcnt : (zeroCounters s).plotcnt = 0 := rfl
@[simp] theorem zeroCounters_wrcnt : (zeroCounters s).wrcnt = 0 := rfl
@[simp] theorem zeroCounters_eng : (zeroCounters s).eng = s.eng := rfl
@[simp] theorem zeroCounters_latch : (zeroCounters s).latch = s.latch := rfl
@[simp] theorem zeroCounters_work : (zeroCounters s).work = s.work := rfl
@[simp] theorem zeroCounters_snk : (zeroCounters s).snk = s.snk := rfl
@[simp] theorem zeroCounters_trace : (zeroCounters s).trace = s.trace := rfl
@[simp] theorem zeroCounters_program : (zeroCounters s).program = s.program := rfl
@[simp] theorem zeroCounters_pending : (zeroCounters s).pending = s.pending := rfl
@[simp] theorem zeroCounters_reads : (zeroCounters s).reads = s.reads := rfl
@[simp] theorem zeroCounters_turns : (zeroCounters s).turns = s.turns := rfl
@[simp] theorem zeroCounters_freeDraws : (zeroCounters s).freeDraws = s.freeDraws := rfl

/-! ### `plot` -/

@[simp] theorem plot_cfg (x y : Int) (c : Color) : (plot x y c s).cfg = s.cfg := rfl
@[simp] theorem plot_fb (x y : Int) (c : Color) :
    (plot x y c s).fb = if inRange s.cfg x y then s.fb.write (cellIndex s.cfg x y) c else s.fb := rfl
@[simp] theorem plot_busy (x y : Int) (c : Color) : (plot x y c s).busy = s.busy := rfl
@[simp] theorem plot_arg0 (x y : Int) (c : Color) : (plot x y c s).arg0 = s.arg0 := rfl
@[simp] theorem plot_arg1 (x y : Int) (c : Color) : (plot x y c s).arg1 = s.arg1 := rfl
@[simp] theorem plot_pixdata (x y : Int) (c : Color) : (plot x y c s).pixdata = s.pixdata := rfl
@[simp] theorem plot_plotcnt (x y : Int) (c : Color) : (plot x y c s).plotcnt = s.plotcnt + 1 := rfl
@[simp] theorem plot_wrcnt (x y : Int) (c : Color) :
    (plot x y c s).wrcnt = if inRange s.cfg x y then s.wrcnt + 1 else s.wrcnt := rfl
@[simp] theorem plot_eng (x y : Int) (c : Color) : (plot x y c s).eng = s.eng := rfl
@[simp] theorem plot_latch (x y : Int) (c : Color) : (plot x y c s).latch = s.latch := rfl
@[simp] theorem plot_work (x y : Int) (c : Color) : (plot x y c s).work = s.work := rfl
@[simp] theorem plot_snk (x y : Int) (c : Color) : (plot x y c s).snk = s.snk := rfl
@[simp] theorem plot_trace (x y : Int) (c : Color) : (plot x y c s).trace = s.trace := rfl
@[simp] theorem plot_program (x y : Int) (c : Color) : (plot x y c s).program = s.program := rfl
@[simp] theorem plot_pending (x y : Int) (c : Color) : (plot x y c s).pending = s.pending := rfl
@[simp] theorem plot_reads (x y : Int) (c : Color) : (plot x y c s).reads = s.reads := rfl
@[simp] theorem plot_turns (x y : Int) (c : Color) : (plot x y c s).turns = s.turns := rfl
@[simp] theorem plot_freeDraws (x y : Int) (c : Color) :
    (plot x y c s).freeDraws = s.freeDraws := rfl

/-! ### `startCommand` -/

@[simp] theorem startCommand_cfg (w : Word) : (startCommand w s).cfg = s.cfg := rfl
@[simp] theorem startCommand_fb (w : Word) : (startCommand w s).fb = s.fb := rfl
@[simp] theorem startCommand_busy (w : Word) : (startCommand w s).busy = true := rfl
@[simp] theorem startCommand_arg0 (w : Word) : (startCommand w s).arg0 = s.arg0 := rfl
@[simp] theorem startCommand_arg1 (w : Word) : (startCommand w s).arg1 = s.arg1 := rfl
@[simp] theorem startCommand_pixdata (w : Word) : (startCommand w s).pixdata = s.pixdata := rfl
@[simp] theorem startCommand_plotcnt (w : Word) : (startCommand w s).plotcnt = s.plotcnt := rfl
@[simp] theorem startCommand_wrcnt (w : Word) : (startCommand w s).wrcnt = s.wrcnt := rfl
@[simp] theorem startCommand_eng (w : Word) : (startCommand w s).eng = .running := rfl
@[simp] theorem startCommand_latch (w : Word) :
    (startCommand w s).latch = { op := cmdOp w, color := w.extractLsb' 8 2, arg0 := s.arg0, arg1 := s.arg1 } := rfl
@[simp] theorem startCommand_work (w : Word) :
    (startCommand w s).work = { s.work with cursor := 0 } := rfl
@[simp] theorem startCommand_snk (w : Word) : (startCommand w s).snk = s.snk := rfl
@[simp] theorem startCommand_trace (w : Word) : (startCommand w s).trace = s.trace := rfl
@[simp] theorem startCommand_program (w : Word) : (startCommand w s).program = s.program := rfl
@[simp] theorem startCommand_pending (w : Word) : (startCommand w s).pending = s.pending := rfl
@[simp] theorem startCommand_reads (w : Word) : (startCommand w s).reads = s.reads := rfl
@[simp] theorem startCommand_turns (w : Word) : (startCommand w s).turns = s.turns := rfl
@[simp] theorem startCommand_freeDraws (w : Word) :
    (startCommand w s).freeDraws = s.freeDraws := rfl

/-! ### `finish` -/

@[simp] theorem finish_cfg : (finish s).cfg = s.cfg := rfl
@[simp] theorem finish_fb : (finish s).fb = s.fb := rfl
@[simp] theorem finish_busy : (finish s).busy = false := rfl
@[simp] theorem finish_arg0 : (finish s).arg0 = s.arg0 := rfl
@[simp] theorem finish_arg1 : (finish s).arg1 = s.arg1 := rfl
@[simp] theorem finish_pixdata : (finish s).pixdata = s.pixdata := rfl
@[simp] theorem finish_plotcnt : (finish s).plotcnt = s.plotcnt := rfl
@[simp] theorem finish_wrcnt : (finish s).wrcnt = s.wrcnt := rfl
@[simp] theorem finish_eng : (finish s).eng = .idle := rfl
@[simp] theorem finish_latch : (finish s).latch = s.latch := rfl
@[simp] theorem finish_work : (finish s).work = s.work := rfl
@[simp] theorem finish_snk : (finish s).snk = s.snk := rfl
@[simp] theorem finish_trace : (finish s).trace = s.trace := rfl
@[simp] theorem finish_program : (finish s).program = s.program := rfl
@[simp] theorem finish_pending : (finish s).pending = s.pending := rfl
@[simp] theorem finish_reads : (finish s).reads = s.reads := rfl
@[simp] theorem finish_turns : (finish s).turns = s.turns := rfl
@[simp] theorem finish_freeDraws : (finish s).freeDraws = s.freeDraws := rfl

/-! ### `recordRead` -/

@[simp] theorem recordRead_cfg (w : Word) : (recordRead w s).cfg = s.cfg := rfl
@[simp] theorem recordRead_fb (w : Word) : (recordRead w s).fb = s.fb := rfl
@[simp] theorem recordRead_busy (w : Word) : (recordRead w s).busy = s.busy := rfl
@[simp] theorem recordRead_arg0 (w : Word) : (recordRead w s).arg0 = s.arg0 := rfl
@[simp] theorem recordRead_arg1 (w : Word) : (recordRead w s).arg1 = s.arg1 := rfl
@[simp] theorem recordRead_pixdata (w : Word) : (recordRead w s).pixdata = s.pixdata := rfl
@[simp] theorem recordRead_plotcnt (w : Word) : (recordRead w s).plotcnt = s.plotcnt := rfl
@[simp] theorem recordRead_wrcnt (w : Word) : (recordRead w s).wrcnt = s.wrcnt := rfl
@[simp] theorem recordRead_eng (w : Word) : (recordRead w s).eng = s.eng := rfl
@[simp] theorem recordRead_latch (w : Word) : (recordRead w s).latch = s.latch := rfl
@[simp] theorem recordRead_work (w : Word) : (recordRead w s).work = s.work := rfl
@[simp] theorem recordRead_snk (w : Word) : (recordRead w s).snk = s.snk := rfl
@[simp] theorem recordRead_trace (w : Word) : (recordRead w s).trace = s.trace := rfl
@[simp] theorem recordRead_program (w : Word) : (recordRead w s).program = s.program := rfl
@[simp] theorem recordRead_pending (w : Word) : (recordRead w s).pending = s.pending := rfl
@[simp] theorem recordRead_reads (w : Word) : (recordRead w s).reads = s.reads ++ [w] := rfl
@[simp] theorem recordRead_turns (w : Word) : (recordRead w s).turns = s.turns := rfl
@[simp] theorem recordRead_freeDraws (w : Word) : (recordRead w s).freeDraws = s.freeDraws := rfl

/-! ### `applyReset` -/

@[simp] theorem applyReset_cfg : (applyReset s).cfg = s.cfg := rfl
@[simp] theorem applyReset_fb : (applyReset s).fb = unspecifiedFb s.cfg s.freeDraws := rfl
@[simp] theorem applyReset_busy : (applyReset s).busy = true := rfl
@[simp] theorem applyReset_arg0 : (applyReset s).arg0 = 0 := rfl
@[simp] theorem applyReset_arg1 : (applyReset s).arg1 = 0 := rfl
@[simp] theorem applyReset_pixdata : (applyReset s).pixdata = 0 := rfl
@[simp] theorem applyReset_plotcnt : (applyReset s).plotcnt = 0 := rfl
@[simp] theorem applyReset_wrcnt : (applyReset s).wrcnt = 0 := rfl
@[simp] theorem applyReset_eng : (applyReset s).eng = .clearing := rfl
@[simp] theorem applyReset_latch :
    (applyReset s).latch = { op := 0, color := 0, arg0 := 0, arg1 := 0 } := rfl
@[simp] theorem applyReset_work : (applyReset s).work = Work.reset := rfl
@[simp] theorem applyReset_snk :
    (applyReset s).snk = { valid := false, payload := { x := 0, y := 0, color := 0 } } := rfl
@[simp] theorem applyReset_trace : (applyReset s).trace = s.trace := rfl
@[simp] theorem applyReset_program : (applyReset s).program = s.program := rfl
@[simp] theorem applyReset_pending :
    (applyReset s).pending = if s.cfg.heldRetried then s.pending else none := rfl
@[simp] theorem applyReset_reads : (applyReset s).reads = s.reads := rfl
@[simp] theorem applyReset_turns : (applyReset s).turns = s.turns := rfl
@[simp] theorem applyReset_freeDraws : (applyReset s).freeDraws = s.freeDraws + 1 := rfl

end

end Sys2Proof.Machine
end

