-- ==== Sys2Proof/Laws/Bus.lean ====
section
/-! SUPPORT. The laws of the register window: the offset of a window address, and everything a
completed access can do. -/

namespace Sys2Proof.Machine

/-- The offset of the `k`-th byte of the window (R52). -/
theorem busOffset_add (cfg : Config) (k : Nat) : busOffset cfg (cfg.base + k) = BitVec.ofNat 8 k := by
  simp [busOffset]

/-- A 32-bit access at a register's offset selects that register (R23, R89). -/
theorem selected_reg (cfg : Config) (r : Reg) : selected cfg (cfg.base + r.offset) .word = some r := by
  simp only [selected, busOffset_add]
  cases r <;> rfl

/-- Every register stands in the window (R52). -/
theorem inWindow_reg (cfg : Config) (r : Reg) : inWindow cfg (cfg.base + r.offset) = true := by
  cases r <;> simp [inWindow, Reg.offset]

/-- Everything a completed access can do: hand a value to the host, start a command, keep an operand
word, or nothing (R23, R51, R56). -/
theorem complete_cases (a : Access) (s : State) :
    (∃ w, complete a s = recordRead w s) ∨ (∃ w, complete a s = startCommand w s) ∨
      (∃ w, complete a s = { s with arg0 := w }) ∨ (∃ w, complete a s = { s with arg1 := w }) ∨
      complete a s = s := by
  cases a with
  | read addr width => exact .inl ⟨_, rfl⟩
  | write addr width w =>
    simp only [complete, writeData]
    split
    · rename_i r _
      cases r with
      | cmd => exact .inr (.inl ⟨w, rfl⟩)
      | arg0 => exact .inr (.inr (.inl ⟨w, rfl⟩))
      | arg1 => exact .inr (.inr (.inr (.inl ⟨w, rfl⟩)))
      | id | status | pixdata | plotcnt | wrcnt => exact .inr (.inr (.inr (.inr rfl)))
    · exact .inr (.inr (.inr (.inr rfl)))

/-- A write is held while `BUSY = 1`, whatever its offset and width (R60). -/
theorem held_write (s : State) (addr : Nat) (width : AccessWidth) (w : Word) :
    held s (.write addr width w) = s.busy := by simp [held, neverHeld]

/-- While idle nothing is held (R60). -/
theorem held_of_idle {s : State} (h : s.busy = false) (a : Access) : held s a = false := by
  simp [held, h]

end Sys2Proof.Machine
end

