-- ==== Sys2Proof/Laws/Decode.lean ====
section
/-! SUPPORT. The laws of the encodings: bytes and word agree, the fields of an assembled word, and the
latch keeps the fields that matter. -/

namespace Sys2Proof

/-- A word is its four byte lanes (R55). -/
theorem wordOfBytes_lanes (w : Word) :
    wordOfBytes (w.extractLsb' 0 8) (w.extractLsb' 8 8) (w.extractLsb' 16 8) (w.extractLsb' 24 8) = w := by
  apply BitVec.eq_of_getLsbD_eq
  intro i hi
  simp only [wordOfBytes, BitVec.getLsbD_append, BitVec.getLsbD_extractLsb']
  have : i < 32 := hi
  interval_cases i <;> simp

/-- Decoding a word's bytes is decoding the word. -/
theorem decodeBytes_bytesOfWord (w : Word) : decodeBytes (bytesOfWord w) = .ok (decode w, []) := by
  simp only [decodeBytes, bytesOfWord, wordOfBytes_lanes]

/-- A table word of at most 32 bits decodes as the word (R80). -/
theorem decodeTableWord_eq {nbits : Nat} (w : Nat) (h : nbits ≤ 32) :
    decodeTableWord nbits w = some (decode (BitVec.ofNat 32 (w % 2 ^ nbits))) := by
  simp [decodeTableWord, h, decodeBytes_bytesOfWord]

/-- The fields of an assembled `CMD` word (R90). -/
theorem cmdFields_commandWord {op color : Nat} (hop : op < 16) (hc : color < 256) :
    cmdOp (commandWord op color) = BitVec.ofNat 4 op ∧
      cmdColor (commandWord op color) = BitVec.ofNat 8 color := by
  interval_cases op <;> (revert hc; revert color; decide +kernel)

/-- The latched word has the `OP` that was written, and its two colour bits (R38). -/
theorem cmdFields_latchWord (w : Word) (s : Machine.State) :
    cmdOp (Machine.startCommand w s).latch.word = cmdOp w ∧
      (Machine.startCommand w s).latch.word.extractLsb' 8 2 = w.extractLsb' 8 2 := by
  simp only [Machine.startCommand, Machine.Latch.word, cmdOp]
  generalize w.extractLsb' 0 4 = a
  generalize w.extractLsb' 8 2 = b
  revert a b
  decide

/-- The masked colour of a word is `CMD[9:8]` (R82). -/
theorem maskColor_cmdColor (w : Word) :
    Machine.maskColor (cmdColor w).toNat = w.extractLsb' 8 2 := by
  apply BitVec.eq_of_toNat_eq
  simp only [Machine.maskColor, cmdColor, BitVec.toNat_ofNat, BitVec.extractLsb'_toNat]
  omega

end Sys2Proof
end

