-- ==== Sys2Proof/Laws/Memory.lean ====
section
/-! SUPPORT. The laws of the pixel SRAM: read after write, the canonical form is kept, and equal reads
of canonical memories mean equal memories. -/

namespace Sys2Proof.Machine.Memory

@[simp] theorem read_nil (a : Nat) : read [] a = Color.off := rfl

theorem read_cons (k : Nat) (v : Color) (m : Memory) (a : Nat) :
    read ((k, v) :: m) a = if k = a then v else read m a := rfl

@[simp] theorem wfFrom_nil (lo : Nat) : wfFrom lo [] = true := rfl

theorem wfFrom_cons {lo k : Nat} {v : Color} {m : Memory} :
    wfFrom lo ((k, v) :: m) = true ↔ lo ≤ k ∧ v ≠ Color.off ∧ wfFrom (k + 1) m = true := by
  simp [wfFrom, and_assoc]

theorem wfFrom_mono {lo lo' : Nat} {m : Memory} (h : wfFrom lo m = true) (hle : lo' ≤ lo) :
    wfFrom lo' m = true := by
  cases m with
  | nil => rfl
  | cons p m =>
    obtain ⟨k, v⟩ := p
    obtain ⟨h1, h2, h3⟩ := wfFrom_cons.1 h
    exact wfFrom_cons.2 ⟨by omega, h2, h3⟩

/-- Below the first listed index every cell is OFF. -/
theorem read_below {lo a : Nat} {m : Memory} (h : wfFrom lo m = true) (ha : a < lo) :
    read m a = Color.off := by
  induction m generalizing lo with
  | nil => rfl
  | cons p m ih =>
    obtain ⟨k, v⟩ := p
    obtain ⟨h1, -, h3⟩ := wfFrom_cons.1 h
    rw [read_cons, if_neg (by omega)]
    exact ih h3 (by omega)

theorem wfFrom_push {lo a : Nat} {c : Color} {m : Memory} (h : wfFrom (a + 1) m = true)
    (hlo : lo ≤ a) : wfFrom lo (push a c m) = true := by
  unfold push
  split
  · exact wfFrom_mono h (by omega)
  · exact wfFrom_cons.2 ⟨hlo, ‹_›, h⟩

theorem read_push {a b : Nat} {c : Color} {m : Memory} (h : wfFrom (a + 1) m = true) :
    read (push a c m) b = if b = a then c else read m b := by
  unfold push
  by_cases hb : b = a
  · subst hb
    split
    · simp [*, read_below h]
    · simp [read_cons]
  · split
    · simp
    · simp [read_cons, Ne.symm hb]

theorem wfFrom_write {lo a : Nat} {c : Color} {m : Memory} (h : wfFrom lo m = true)
    (hlo : lo ≤ a) : wfFrom lo (write m a c) = true := by
  induction m generalizing lo with
  | nil => exact wfFrom_push rfl hlo
  | cons p m ih =>
    obtain ⟨k, v⟩ := p
    obtain ⟨h1, h2, h3⟩ := wfFrom_cons.1 h
    simp only [write]
    split
    · exact wfFrom_push (wfFrom_cons.2 ⟨by omega, h2, h3⟩) hlo
    · split
      · subst a
        exact wfFrom_push h3 hlo
      · exact wfFrom_cons.2 ⟨h1, h2, ih h3 (by omega)⟩

/-- A write keeps the canonical form. -/
theorem wf_write {m : Memory} (a : Nat) (c : Color) (h : m.wf = true) : (write m a c).wf = true :=
  wfFrom_write h (Nat.zero_le a)

theorem read_write_from {lo a b : Nat} {c : Color} {m : Memory} (h : wfFrom lo m = true) :
    read (write m a c) b = if b = a then c else read m b := by
  induction m generalizing lo with
  | nil => exact read_push rfl
  | cons p m ih =>
    obtain ⟨k, v⟩ := p
    obtain ⟨h1, h2, h3⟩ := wfFrom_cons.1 h
    simp only [write]
    split
    · exact read_push (wfFrom_cons.2 ⟨by omega, h2, h3⟩)
    · split
      · subst a
        rw [read_push h3, read_cons]
        by_cases hb : b = k
        · simp [hb]
        · simp [hb, Ne.symm hb]
      · rw [read_cons, ih h3, read_cons]
        by_cases hb : b = a
        · subst hb
          simp [Ne.symm ‹¬ b = k›]
        · simp [hb]

/-- A read after a write: the colour written at its own index, the old colour everywhere else. -/
theorem read_write {m : Memory} (h : m.wf = true) (a b : Nat) (c : Color) :
    read (write m a c) b = if b = a then c else read m b := read_write_from h

/-- A write lists no index but its own beside those listed before. -/
theorem mem_write {m : Memory} {a : Nat} {c : Color} {p : Nat × Color} (h : p ∈ write m a c) :
    p.1 = a ∨ p ∈ m := by
  have hpush : ∀ {m : Memory}, p ∈ push a c m → p.1 = a ∨ p ∈ m := by
    intro m h
    unfold push at h
    split at h
    · exact .inr h
    · rcases List.mem_cons.1 h with rfl | h
      · exact .inl rfl
      · exact .inr h
  induction m with
  | nil => exact hpush h
  | cons q m ih =>
    obtain ⟨k, v⟩ := q
    simp only [write] at h
    split at h
    · exact hpush h
    · split at h
      · exact (hpush h).imp_right (List.mem_cons_of_mem _)
      · rcases List.mem_cons.1 h with rfl | h
        · exact .inr List.mem_cons_self
        · exact (ih h).imp_right (List.mem_cons_of_mem _)

/-- Two canonical memories that read the same everywhere are the same list. -/
theorem ext_of_read {lo : Nat} {m m' : Memory} (h : wfFrom lo m = true) (h' : wfFrom lo m' = true)
    (hr : ∀ a, read m a = read m' a) : m = m' := by
  induction m generalizing lo m' with
  | nil =>
    cases m' with
    | nil => rfl
    | cons q m' =>
      obtain ⟨k, v⟩ := q
      obtain ⟨-, h2, -⟩ := wfFrom_cons.1 h'
      exact absurd (by simpa [read_cons] using (hr k).symm) h2
  | cons p m ih =>
    obtain ⟨k, v⟩ := p
    obtain ⟨h1, h2, h3⟩ := wfFrom_cons.1 h
    cases m' with
    | nil => exact absurd (by simpa [read_cons] using hr k) h2
    | cons q m' =>
      obtain ⟨k', v'⟩ := q
      obtain ⟨h1', h2', h3'⟩ := wfFrom_cons.1 h'
      have hk : k = k' := by
        rcases Nat.lt_trichotomy k k' with hlt | heq | hgt
        · have := hr k
          rw [read_cons, if_pos rfl, read_cons, if_neg (by omega), read_below h3' (by omega)] at this
          exact absurd this h2
        · exact heq
        · have := hr k'
          rw [read_cons, if_neg (by omega), read_below h3 (by omega), read_cons, if_pos rfl] at this
          exact absurd this.symm h2'
      subst hk
      have hv : v = v' := by simpa [read_cons] using hr k
      subst hv
      rw [ih h3 h3' fun a => ?_]
      by_cases ha : k = a
      · subst ha
        rw [read_below h3 (by omega), read_below h3' (by omega)]
      · simpa [read_cons, ha] using hr a

end Sys2Proof.Machine.Memory
end

