-- ==== Sys2Proof/Laws/Clear.lean ====
section
/-! SUPPORT. What clearing does: the cells it passes turn OFF, nothing but `fb` and the cell cursor
changes, and the canonical form is kept. -/

namespace Sys2Proof.Machine

/-- The frame of the clearing loop. -/
theorem clearLoop_frame (n : Nat) (s : State) :
    clearLoop n s =
      { s with fb := (clearLoop n s).fb, work := { s.work with cursor := s.work.cursor + n } } := by
  induction n generalizing s with
  | zero => rfl
  | succ n ih =>
    rw [clearLoop, ih]
    simp only [State.setFb, State.setCursor, State.setWork]
    rw [Nat.add_right_comm, Nat.add_assoc]

theorem clearLoop_wf (n : Nat) (s : State) (h : s.fb.wf = true) : (clearLoop n s).fb.wf = true := by
  induction n generalizing s with
  | zero => exact h
  | succ n ih => exact ih _ (Memory.wf_write _ _ h)

/-- A cell after the clearing loop: OFF from the cursor on, for as many cells as were cleared. -/
theorem clearLoop_read (n : Nat) (s : State) (h : s.fb.wf = true) (a : Nat) :
    (clearLoop n s).fb.read a =
      if s.work.cursor ≤ a ∧ a < s.work.cursor + n then Color.off else s.fb.read a := by
  induction n generalizing s with
  | zero => rw [clearLoop, if_neg (by omega)]
  | succ n ih =>
    rw [clearLoop, ih _ (Memory.wf_write _ _ h)]
    simp only [setCursor_work, setCursor_fb, setFb_fb, Memory.read_write h]
    by_cases ha : a = s.work.cursor
    · rw [if_neg (by omega), if_pos ha, if_pos (by omega)]
    · rw [if_neg ha]
      exact if_congr (by omega) rfl rfl

/-- A cleared list holds no cell that was not there, in particular none outside the grid. -/
theorem clearLoop_mem (n : Nat) (s : State) {p : Nat × Color} (hp : p ∈ (clearLoop n s).fb)
    (h : ∀ q ∈ s.fb, q.1 < s.work.cursor + n) : p.1 < s.work.cursor + n := by
  induction n generalizing s with
  | zero => exact h p hp
  | succ n ih =>
    have := ih _ hp fun q hq => ?_
    · simpa [Nat.add_assoc, Nat.add_comm 1 n] using this
    · simp only [setCursor_work, setCursor_fb, setFb_fb] at hq ⊢
      rcases Memory.mem_write hq with hq | hq
      · omega
      · have := h q hq
        omega

/-- The frame of `clearCells`: `fb` and the cell cursor only (R113). -/
theorem clearCells_frame (s : State) :
    clearCells s =
      { s with fb := (clearCells s).fb, work := { s.work with cursor := s.cfg.cells } } := by
  rw [clearCells, clearLoop_frame]
  simp [State.setCursor, State.setWork]

theorem clearCells_wf (s : State) (h : s.fb.wf = true) : (clearCells s).fb.wf = true :=
  clearLoop_wf _ _ h

/-- Every index of the grid reads OFF after `clearCells` (R113). -/
theorem clearCells_read (s : State) (h : s.fb.wf = true) (a : Nat) :
    (clearCells s).fb.read a = if a < s.cfg.cells then Color.off else s.fb.read a := by
  rw [clearCells, clearLoop_read _ (s.setCursor 0) h]
  simp

theorem clearCells_inGrid (s : State) (h : ∀ q ∈ s.fb, q.1 < s.cfg.cells) :
    ∀ q ∈ (clearCells s).fb, q.1 < s.cfg.cells := fun q hq => by
  simpa using clearLoop_mem s.cfg.cells (s.setCursor 0) hq (by simpa using h)

/-- `clearCells` starts its own cursor: the old one does not matter (R37). -/
theorem clearCells_setWork (w : Work) (s : State) :
    (clearCells (s.setWork w)).fb = (clearCells s).fb := by
  have : ∀ n (s : State) (w : Work), w.cursor = s.work.cursor →
      (clearLoop n (s.setWork w)).fb = (clearLoop n s).fb := by
    intro n
    induction n with
    | zero => intro s w _; rfl
    | succ n ih =>
      intro s w h
      have h1 := ih ((s.setFb (s.fb.write s.work.cursor Color.off)).setCursor (s.work.cursor + 1))
        { w with cursor := w.cursor + 1 } (by simp [h])
      rw [clearLoop, clearLoop, ← h1]
      simp only [setWork_fb, setWork_work, h]
      rfl
  exact this _ (s.setCursor 0) _ rfl

end Sys2Proof.Machine
end

