-- ==== Sys2Proof/Laws/Plot.lean ====
section
/-! SUPPORT. What `Plot` and a sequence of plots do: the counters, the cells, and the frame. -/

namespace Sys2Proof.Machine

/-! ### Cells -/

theorem inRange_iff {cfg : Config} {x y : Int} :
    inRange cfg x y = true ↔ 0 ≤ x ∧ x < cfg.fbW ∧ 0 ≤ y ∧ y < cfg.fbH := by
  simp [inRange, and_assoc]

/-- Two in-range cells of one linear index are the same cell (R68). -/
theorem cellIndex_inj {cfg : Config} {x y x' y' : Int} (h : inRange cfg x y = true)
    (h' : inRange cfg x' y' = true) (he : cellIndex cfg x y = cellIndex cfg x' y') :
    x = x' ∧ y = y' := by
  obtain ⟨hx, hxw, hy, -⟩ := inRange_iff.1 h
  obtain ⟨hx', hxw', hy', -⟩ := inRange_iff.1 h'
  lift x to Nat using hx
  lift y to Nat using hy
  lift x' to Nat using hx'
  lift y' to Nat using hy'
  simp only [cellIndex, Int.toNat_natCast] at he
  have hw : x < cfg.fbW := by omega
  have hw' : x' < cfg.fbW := by omega
  have hq : y = y' := by
    have := congrArg (· / cfg.fbW) he
    simpa [Nat.mul_comm _ cfg.fbW, Nat.mul_add_div (by omega : 0 < cfg.fbW),
      Nat.div_eq_of_lt hw, Nat.div_eq_of_lt hw'] using this
  subst hq
  omega

/-- An in-range cell has an index below the number of cells. -/
theorem cellIndex_lt {cfg : Config} {x y : Int} (h : inRange cfg x y = true) :
    cellIndex cfg x y < cfg.cells := by
  obtain ⟨hx, hxw, hy, hyh⟩ := inRange_iff.1 h
  lift x to Nat using hx
  lift y to Nat using hy
  simp only [cellIndex, Config.cells, Int.toNat_natCast]
  have h1 : x < cfg.fbW := by omega
  have h2 : y + 1 ≤ cfg.fbH := by omega
  calc y * cfg.fbW + x < (y + 1) * cfg.fbW := by rw [Nat.succ_mul]; omega
    _ ≤ cfg.fbH * cfg.fbW := Nat.mul_le_mul_right _ h2
    _ = cfg.fbW * cfg.fbH := Nat.mul_comm ..

/-! ### A sequence of plots -/

@[simp] theorem plotAll_nil (c : Color) (s : State) : plotAll c [] s = s := rfl

@[simp] theorem plotAll_cons (c : Color) (p : Point) (ps : List Point) (s : State) :
    plotAll c (p :: ps) s = plotAll c ps (plot p.x p.y c s) := rfl

theorem plotAll_append (c : Color) (ps qs : List Point) (s : State) :
    plotAll c (ps ++ qs) s = plotAll c qs (plotAll c ps s) := by
  induction ps generalizing s with
  | nil => rfl
  | cons p ps ih => exact ih _

/-- Plots neither read nor write the working variables. -/
theorem plotAll_setWork (c : Color) (ps : List Point) (w : Work) (s : State) :
    plotAll c ps (s.setWork w) = (plotAll c ps s).setWork w := by
  induction ps generalizing s with
  | nil => rfl
  | cons p ps ih => exact ih (plot p.x p.y c s)

theorem plotAll_cfg (c : Color) (ps : List Point) (s : State) : (plotAll c ps s).cfg = s.cfg := by
  induction ps generalizing s with
  | nil => rfl
  | cons p ps ih => exact ih _

/-- `PLOTCNT` counts every plot (R30, R111). -/
theorem plotAll_plotcnt (c : Color) (ps : List Point) (s : State) :
    (plotAll c ps s).plotcnt = s.plotcnt + BitVec.ofNat 32 ps.length := by
  induction ps generalizing s with
  | nil => simp
  | cons p ps ih =>
    rw [plotAll_cons, ih, plot_plotcnt, List.length_cons, BitVec.ofNat_add, BitVec.add_assoc,
      BitVec.add_comm (BitVec.ofNat 32 ps.length)]
    rfl

/-- `WRCNT` counts the in-range plots (R31, R111). -/
theorem plotAll_wrcnt (c : Color) (ps : List Point) (s : State) :
    (plotAll c ps s).wrcnt = s.wrcnt + BitVec.ofNat 32 (countInRange s.cfg ps) := by
  induction ps generalizing s with
  | nil => simp [countInRange]
  | cons p ps ih =>
    rw [plotAll_cons, ih, plot_wrcnt, plot_cfg]
    simp only [countInRange, List.countP_cons]
    split
    · rw [BitVec.ofNat_add, BitVec.add_assoc, BitVec.add_comm (BitVec.ofNat 32 _)]
      rfl
    · rfl

/-- The frame of plots: only `fb` and the two counters. -/
theorem plotAll_frame (c : Color) (ps : List Point) (s : State) :
    plotAll c ps s = { s with
      fb := (plotAll c ps s).fb
      plotcnt := (plotAll c ps s).plotcnt
      wrcnt := (plotAll c ps s).wrcnt } := by
  induction ps generalizing s with
  | nil => rfl
  | cons p ps ih => rw [plotAll_cons, ih (plot p.x p.y c s)]; rfl

/-- Plots keep the canonical form of `fb`. -/
theorem plotAll_wf (c : Color) (ps : List Point) (s : State) (h : s.fb.wf = true) :
    (plotAll c ps s).fb.wf = true := by
  induction ps generalizing s with
  | nil => exact h
  | cons p ps ih =>
    refine ih _ ?_
    rw [plot_fb]
    split
    · exact Memory.wf_write _ _ h
    · exact h

/-- Plots list cells of the grid only. -/
theorem plotAll_inGrid (c : Color) (ps : List Point) (s : State)
    (h : ∀ q ∈ s.fb, q.1 < s.cfg.cells) : ∀ q ∈ (plotAll c ps s).fb, q.1 < s.cfg.cells := by
  induction ps generalizing s with
  | nil => exact h
  | cons p ps ih =>
    refine ih (plot p.x p.y c s) fun q hq => ?_
    rw [plot_fb] at hq
    split at hq
    · rcases Memory.mem_write hq with hq | hq
      · rw [hq, plot_cfg]
        exact cellIndex_lt ‹_›
      · exact h q hq
    · exact h q hq

/-- A cell after plots: the colour where an in-range plot has its index, the old colour elsewhere. -/
theorem plotAll_read (c : Color) (ps : List Point) (s : State) (h : s.fb.wf = true) (a : Nat) :
    (plotAll c ps s).fb.read a =
      if ∃ p ∈ ps, inRange s.cfg p.x p.y = true ∧ cellIndex s.cfg p.x p.y = a then c
      else s.fb.read a := by
  induction ps generalizing s with
  | nil => simp
  | cons p ps ih =>
    have hwf : (plot p.x p.y c s).fb.wf = true := plotAll_wf c [p] s h
    rw [plotAll_cons, ih _ hwf, plot_fb, plot_cfg]
    by_cases hr : inRange s.cfg p.x p.y = true
    · rw [if_pos hr, Memory.read_write h]
      by_cases ha : cellIndex s.cfg p.x p.y = a
      · have : ∃ q ∈ p :: ps, inRange s.cfg q.x q.y = true ∧ cellIndex s.cfg q.x q.y = a :=
          ⟨p, List.mem_cons_self, hr, ha⟩
        rw [if_pos this, if_pos ha.symm, ite_self]
      · simp only [List.exists_mem_cons_iff, ha, and_false, false_or, if_neg (Ne.symm ha)]
    · simp only [List.exists_mem_cons_iff, hr, false_and, false_or, if_false, Bool.false_eq_true]

/-- The cell `(x, y)` after plots (R111). -/
theorem plotAll_cell (c : Color) (ps : List Point) (s : State) (h : s.fb.wf = true) {x y : Int}
    (hr : inRange s.cfg x y = true) :
    (plotAll c ps s).cell x y = if { x := x, y := y } ∈ ps then c else s.cell x y := by
  unfold State.cell
  rw [plotAll_cfg, plotAll_read c ps s h]
  refine if_congr ⟨?_, fun hm => ⟨_, hm, hr, rfl⟩⟩ rfl rfl
  rintro ⟨p, hp, hpr, hpe⟩
  obtain ⟨hx, hy⟩ := cellIndex_inj hpr hr hpe
  subst hx hy
  exact hp

/-- No more in-range plots than plots (R31). -/
theorem countInRange_le (cfg : Config) (ps : List Point) : countInRange cfg ps ≤ ps.length :=
  List.countP_le_length

end Sys2Proof.Machine
end

