-- ==== Sys2Proof/Laws/Raster.lean ====
section
/-! SUPPORT. What each drawing loop does, said once: it plots its sequence (Machine/PlotSeq.lean)
and leaves something in the working variables. Provers cite these and never unfold a loop. -/

namespace Sys2Proof.Machine

theorem plot_setWork (x y : Int) (c : Color) (w : Work) (s : State) :
    plot x y c (s.setWork w) = (plot x y c s).setWork w := rfl

@[simp] theorem setWork_setWork (w w' : Work) (s : State) :
    (s.setWork w).setWork w' = s.setWork w' := rfl

/-- A state change that plots `ps` in colour `c` and writes working variables, nothing else. -/
def PlotsExactly (c : Color) (ps : List Point) (s t : State) : Prop :=
  ∃ w : Work, t = (plotAll c ps s).setWork w

namespace PlotsExactly

theorem of_work {c : Color} (w : Work) (s : State) : PlotsExactly c [] s (s.setWork w) := ⟨w, rfl⟩

theorem trans {c : Color} {ps qs : List Point} {s t u : State} (h : PlotsExactly c ps s t)
    (h' : PlotsExactly c qs t u) : PlotsExactly c (ps ++ qs) s u := by
  obtain ⟨w, rfl⟩ := h
  obtain ⟨w', rfl⟩ := h'
  exact ⟨w', by rw [plotAll_setWork, plotAll_append, setWork_setWork]⟩

theorem one (x y : Int) (c : Color) (s : State) :
    PlotsExactly c [{ x := x, y := y }] s (plot x y c s) := ⟨s.work, rfl⟩

end PlotsExactly

/-! ### Line -/

theorem lineLoop_plots (x1 y1 : Int) (c : Color) (n : Nat) (s : State) :
    PlotsExactly c (linePath x1 y1 n s.work.line) s (lineLoop x1 y1 c n s) := by
  induction n generalizing s with
  | zero => exact PlotsExactly.of_work s.work s
  | succ n ih =>
    simp only [lineLoop, linePath]
    split
    · exact PlotsExactly.one ..
    · exact (PlotsExactly.one ..).trans ((PlotsExactly.of_work _ _).trans (ih _))

/-- `Line` plots its sequence (R130). -/
theorem drawLine_plots (x0 y0 x1 y1 : Int) (c : Color) (s : State) :
    PlotsExactly c (linePlots x0 y0 x1 y1) s (drawLine x0 y0 x1 y1 c s) :=
  (PlotsExactly.of_work _ s).trans (lineLoop_plots ..)

/-! ### Rectangle outline -/

/-- What an edge leaves: the edge index is not a working variable of `Line`. -/
theorem lineLoop_edge (x1 y1 : Int) (c : Color) (n : Nat) (s : State) :
    (lineLoop x1 y1 c n s).work.edge = s.work.edge := by
  induction n generalizing s with
  | zero => rfl
  | succ n ih =>
    simp only [lineLoop]
    split
    · rfl
    · rw [ih]; rfl

theorem rectLoop_plots (x y xr yb : Int) (c : Color) (n : Nat) (s : State) :
    PlotsExactly c ((List.range' s.work.edge n).flatMap fun k => (rectEdge x y xr yb k).plots) s
      (rectLoop x y xr yb c n s) := by
  induction n generalizing s with
  | zero => exact PlotsExactly.of_work s.work s
  | succ n ih =>
    rw [List.range'_succ, List.flatMap_cons]
    exact (drawLine_plots ..).trans ((PlotsExactly.of_work _ _).trans (ih _))

/-- The body of `RECT` plots its sequence (R140). -/
theorem drawRect_plots (x y : Int) (w h : Nat) (c : Color) (s : State) :
    PlotsExactly c (rectPlots x y w h) s (drawRect x y w h c s) := by
  unfold drawRect rectPlots
  split
  · exact PlotsExactly.of_work s.work s
  · split
    · exact drawLine_plots ..
    · have := (PlotsExactly.of_work _ s).trans
        (rectLoop_plots x y (x + w - 1) (y + h - 1) c 4 (s.setEdge 0))
      simpa [List.range', Edge.plots, rectEdge] using this

/-! ### Filled rectangle -/

theorem fillCols_plots (c : Color) (n : Nat) (s : State) :
    PlotsExactly c (fillRow s.work.fill.col s.work.fill.row n) s (fillCols c n s) := by
  induction n generalizing s with
  | zero => exact PlotsExactly.of_work s.work s
  | succ n ih =>
    have := (PlotsExactly.one s.work.fill.col s.work.fill.row c s).trans
      ((PlotsExactly.of_work _ _).trans (ih ((plot s.work.fill.col s.work.fill.row c s).setFill
        { s.work.fill with col := s.work.fill.col + 1 })))
    have hrow : fillRow s.work.fill.col s.work.fill.row (n + 1) =
        { x := s.work.fill.col, y := s.work.fill.row } ::
          fillRow (s.work.fill.col + 1) s.work.fill.row n := by
      rw [fillRow, List.range_succ_eq_map, List.map_cons, List.map_map, Nat.cast_zero, add_zero]
      refine congrArg _ (List.map_congr_left fun i _ => ?_)
      simp only [Function.comp_apply, Point.mk.injEq, and_true]
      omega
    rw [hrow]
    exact this

theorem fillCols_row (c : Color) (n : Nat) (s : State) :
    (fillCols c n s).work.fill.row = s.work.fill.row := by
  induction n generalizing s with
  | zero => rfl
  | succ n ih => exact ih _

theorem fillRows_plots (x : Int) (w : Nat) (c : Color) (n : Nat) (s : State) :
    PlotsExactly c (fillPlots x s.work.fill.row w n) s (fillRows x w c n s) := by
  induction n generalizing s with
  | zero => exact PlotsExactly.of_work s.work s
  | succ n ih =>
    have hrows : fillPlots x s.work.fill.row w (n + 1) =
        fillRow x s.work.fill.row w ++ fillPlots x (s.work.fill.row + 1) w n := by
      rw [fillPlots, List.range_succ_eq_map, List.flatMap_cons, List.flatMap_map, Nat.cast_zero,
        add_zero, fillPlots]
      refine congrArg _ (List.flatMap_congr fun j _ => ?_)
      rw [Nat.succ_eq_add_one, Nat.cast_succ, add_assoc, add_comm (1 : Int)]
    rw [hrows]
    exact (PlotsExactly.of_work _ s).trans
      ((fillCols_plots c w (s.setFill { s.work.fill with col := x })).trans
        ((PlotsExactly.of_work _ _).trans (ih _)))

/-- The body of `FILLRECT` plots its sequence (R145). -/
theorem drawFill_plots (x y : Int) (w h : Nat) (c : Color) (s : State) :
    PlotsExactly c (fillPlots x y w h) s (drawFill x y w h c s) :=
  (PlotsExactly.of_work _ s).trans (fillRows_plots ..)

/-! ### Circle -/

theorem circlePoints_plots (x0 y0 : Int) (c : Color) (n : Nat) (s : State) :
    PlotsExactly c
      ((List.range' s.work.circle.point n).map (octant x0 y0 s.work.circle.x s.work.circle.y)) s
      (circlePoints x0 y0 c n s) := by
  induction n generalizing s with
  | zero => exact PlotsExactly.of_work s.work s
  | succ n ih =>
    rw [List.range'_succ, List.map_cons]
    exact (PlotsExactly.one ..).trans ((PlotsExactly.of_work _ _).trans (ih _))

theorem circleLoop_plots (x0 y0 : Int) (c : Color) (n : Nat) (s : State) :
    PlotsExactly c ((circleStates n s.work.circle).flatMap (octantPlots x0 y0)) s
      (circleLoop x0 y0 c n s) := by
  induction n generalizing s with
  | zero => exact PlotsExactly.of_work s.work s
  | succ n ih =>
    simp only [circleLoop, circleStates]
    split
    · rw [List.flatMap_cons]
      have := circlePoints_plots x0 y0 c 8 (s.setCircle { s.work.circle with point := 0 })
      refine PlotsExactly.trans ?_ ((PlotsExactly.of_work _ _).trans (ih _))
      rw [octantPlots, List.range_eq_range']
      exact (PlotsExactly.of_work _ s).trans this
    · exact PlotsExactly.of_work s.work s

/-- `Circle` plots its sequence (R150). -/
theorem drawCircle_plots (x0 y0 : Int) (r : Nat) (c : Color) (s : State) :
    PlotsExactly c (circlePlots x0 y0 r) s (drawCircle x0 y0 r c s) :=
  (PlotsExactly.of_work _ s).trans (circleLoop_plots ..)

end Sys2Proof.Machine
end

