-- ==== Sys2Proof/Laws/Exec.lean ====
section
/-! SUPPORT. One lemma per meaning: what the command's step is, in terms of its plot sequence. -/

namespace Sys2Proof.Machine

/-- The step of a drawing command that plots `ps` in colour `c`: counters zeroed, the plots made, some
working variables left behind, the command ended. -/
def DrawsExactly (c : Color) (ps : List Point) (s t : State) : Prop :=
  ∃ w : Work, t = finish ((plotAll c ps (zeroCounters s)).setWork w)

theorem execSetpix_draws (color : Nat) (s : State) :
    ∃ t, execSetpix color s = .next t ∧
      DrawsExactly (maskColor color) [{ x := pointX s, y := pointY s }] s t :=
  ⟨_, rfl, s.work, rfl⟩

theorem execLine_draws (color : Nat) (s : State) :
    ∃ t, execLine color s = .next t ∧
      DrawsExactly (maskColor color) (linePlots (pointX s) (pointY s) (endX s) (endY s)) s t := by
  obtain ⟨w, hw⟩ := drawLine_plots (pointX s) (pointY s) (endX s) (endY s) (maskColor color)
    (zeroCounters s)
  exact ⟨_, rfl, w, congrArg finish hw⟩

theorem execRect_draws (color : Nat) (s : State) :
    ∃ t, execRect color s = .next t ∧
      DrawsExactly (maskColor color) (rectPlots (pointX s) (pointY s) (sizeW s) (sizeH s)) s t := by
  obtain ⟨w, hw⟩ := drawRect_plots (pointX s) (pointY s) (sizeW s) (sizeH s) (maskColor color)
    (zeroCounters s)
  exact ⟨_, rfl, w, congrArg finish hw⟩

theorem execFillrect_draws (color : Nat) (s : State) :
    ∃ t, execFillrect color s = .next t ∧
      DrawsExactly (maskColor color) (fillPlots (pointX s) (pointY s) (sizeW s) (sizeH s)) s t := by
  obtain ⟨w, hw⟩ := drawFill_plots (pointX s) (pointY s) (sizeW s) (sizeH s) (maskColor color)
    (zeroCounters s)
  exact ⟨_, rfl, w, congrArg finish hw⟩

theorem execCircle_draws (color : Nat) (s : State) :
    ∃ t, execCircle color s = .next t ∧
      DrawsExactly (maskColor color) (circlePlots (pointX s) (pointY s) (radius s)) s t := by
  obtain ⟨w, hw⟩ := drawCircle_plots (pointX s) (pointY s) (radius s) (maskColor color)
    (zeroCounters s)
  exact ⟨_, rfl, w, congrArg finish hw⟩

namespace DrawsExactly

variable {c : Color} {ps : List Point} {s t : State}

/-- Only `fb`, the counters, the working variables, `eng_state` and `BUSY` can change. -/
theorem frame (h : DrawsExactly c ps s t) : DrawingFrame s t := by
  obtain ⟨w, rfl⟩ := h
  rw [plotAll_frame]
  rfl

theorem plotcnt (h : DrawsExactly c ps s t) : t.plotcnt = BitVec.ofNat 32 ps.length := by
  obtain ⟨w, rfl⟩ := h
  simp [plotAll_plotcnt]

theorem wrcnt (h : DrawsExactly c ps s t) : t.wrcnt = BitVec.ofNat 32 (countInRange s.cfg ps) := by
  obtain ⟨w, rfl⟩ := h
  simp [plotAll_wrcnt]

theorem fb_wf (h : DrawsExactly c ps s t) (hw : s.fb.wf = true) : t.fb.wf = true := by
  obtain ⟨w, rfl⟩ := h
  exact plotAll_wf c ps (zeroCounters s) hw

theorem fb_inGrid (h : DrawsExactly c ps s t) (hg : ∀ q ∈ s.fb, q.1 < s.cfg.cells) :
    ∀ q ∈ t.fb, q.1 < s.cfg.cells := by
  obtain ⟨w, rfl⟩ := h
  exact plotAll_inGrid c ps (zeroCounters s) hg

theorem read (h : DrawsExactly c ps s t) (hw : s.fb.wf = true) (a : Nat) :
    t.fb.read a =
      if ∃ p ∈ ps, inRange s.cfg p.x p.y = true ∧ cellIndex s.cfg p.x p.y = a then c
      else s.fb.read a := by
  obtain ⟨w, rfl⟩ := h
  exact plotAll_read c ps (zeroCounters s) hw a

theorem cell (h : DrawsExactly c ps s t) (hw : s.fb.wf = true) {x y : Int}
    (hr : inRange s.cfg x y = true) :
    t.cell x y = if { x := x, y := y } ∈ ps then c else s.cell x y := by
  obtain ⟨w, rfl⟩ := h
  exact plotAll_cell c ps (zeroCounters s) hw hr

end DrawsExactly

/-- A drawing command's plots, for each of the five (R116). -/
theorem exec_draws {i : Instr} {color : Nat}
    (hi : i = .setpix color ∨ i = .line color ∨ i = .rect color ∨ i = .fillrect color ∨
      i = .circle color) (s : State) :
    ∃ t ps, exec i s = .next t ∧ DrawsExactly (maskColor color) ps s t := by
  rcases hi with rfl | rfl | rfl | rfl | rfl
  · obtain ⟨t, h, d⟩ := execSetpix_draws color s; exact ⟨t, _, h, d⟩
  · obtain ⟨t, h, d⟩ := execLine_draws color s; exact ⟨t, _, h, d⟩
  · obtain ⟨t, h, d⟩ := execRect_draws color s; exact ⟨t, _, h, d⟩
  · obtain ⟨t, h, d⟩ := execFillrect_draws color s; exact ⟨t, _, h, d⟩
  · obtain ⟨t, h, d⟩ := execCircle_draws color s; exact ⟨t, _, h, d⟩

/-- `CLEAR` (R113). -/
theorem execClear_frame (s : State) :
    execClear s = .next { s with
      fb := (clearCells s).fb, work := { s.work with cursor := s.cfg.cells }
      eng := .idle, busy := false } := by
  rw [execClear, clearCells_frame]
  rfl

/-- `FLUSH`, the three cases of its step (R160, R162). -/
theorem execFlush_cases (s : State) :
    (s.snk.valid = true ∧ execFlush s = .next s) ∨
    (s.snk.valid = false ∧ s.work.cursor < s.cfg.cells ∧ execFlush s = .next (offerTransfer s)) ∨
    (s.snk.valid = false ∧ s.cfg.cells ≤ s.work.cursor ∧ execFlush s = .next (finish s)) := by
  unfold execFlush
  cases h : s.snk.valid
  · by_cases hc : s.work.cursor < s.cfg.cells
    · simp [hc]
    · simp [hc, Nat.le_of_not_lt hc]
  · simp

end Sys2Proof.Machine
end

