-- ==== Sys2Proof/Laws/Agents.lean ====
section
/-! SUPPORT. Everything one step can do, said once: the turn that is taken, and the cases of each
agent's turn. -/

namespace Sys2Proof.Machine

/-- From legal parameters a step is the turn of the next agent. -/
theorem step_of_legal {s : State} (h : s.cfg.legal = true) :
    step s = agentTurn (nextTurn s) (s.setTurns s.turns.tail) := if_pos h

/-- Everything a step that answers a next state has done. -/
theorem step_next {s t : State} (h : step s = .next t) :
    s.cfg.legal = true ∧ agentTurn (nextTurn s) (s.setTurns s.turns.tail) = .next t := by
  unfold step at h
  split at h
  · exact ⟨‹_›, h⟩
  · cases h

/-- Everything the host's turn can do (R60, R92): the held access completes or waits; `WAIT` polls; an
access becomes outstanding, completes, or is none of the FBR's. -/
theorem hostTurn_cases (s : State) :
    (∃ a, s.pending = some a ∧ s.busy = true ∧ hostTurn s = .next s) ∨
    (∃ a, s.pending = some a ∧ s.busy = false ∧
      hostTurn s = .next (complete a { s with pending := none })) ∨
    (s.pending = none ∧ s.program = [] ∧ hostTurn s = .next s) ∨
    (∃ rest, s.pending = none ∧ s.program = .wait :: rest ∧
      hostTurn s = .next (recordRead (statusWord s.busy)
        { s with program := if s.busy then s.program else rest })) ∨
    (∃ a rest, s.pending = none ∧ s.program = .access a :: rest ∧ inWindow s.cfg a.addr = true ∧
      held s a = true ∧ hostTurn s = .next { s with program := rest, pending := some a }) ∨
    (∃ a rest, s.pending = none ∧ s.program = .access a :: rest ∧ inWindow s.cfg a.addr = true ∧
      held s a = false ∧ hostTurn s = .next (complete a { s with program := rest })) ∨
    (∃ a rest, s.pending = none ∧ s.program = .access a :: rest ∧ inWindow s.cfg a.addr = false ∧
      hostTurn s = .fault .outsideWindow) := by
  unfold hostTurn
  cases hp : s.pending with
  | some a =>
    cases hb : s.busy with
    | true => exact .inl ⟨a, rfl, rfl, by simp⟩
    | false => exact .inr (.inl ⟨a, rfl, rfl, by simp⟩)
  | none =>
    cases hpr : s.program with
    | nil => exact .inr (.inr (.inl ⟨rfl, rfl, rfl⟩))
    | cons op rest =>
      cases op with
      | wait => exact .inr (.inr (.inr (.inl ⟨rest, rfl, rfl, rfl⟩)))
      | access a =>
        cases hw : inWindow s.cfg a.addr with
        | false =>
          exact .inr (.inr (.inr (.inr (.inr (.inr ⟨a, rest, rfl, rfl, hw, by simp [hw]⟩)))))
        | true =>
          cases hh : held s a with
          | true =>
            exact .inr (.inr (.inr (.inr (.inl ⟨a, rest, rfl, rfl, hw, hh, by simp [hw, hh]⟩))))
          | false =>
            exact .inr (.inr (.inr (.inr (.inr (.inl
              ⟨a, rest, rfl, rfl, hw, hh, by simp [hw, hh]⟩)))))

/-- The command of a latch is `FLUSH` exactly when `L_OP` is 0x8 (R86). -/
theorem decode_latch_flush (l : Latch) : decode l.word = .flush ↔ l.op = 0x8#4 := by
  have : ∀ (c : Color) (o : BitVec 4),
      decodeOp (cmdOp ((0 : BitVec 22) ++ c ++ (0 : BitVec 4) ++ o))
        (cmdColor ((0 : BitVec 22) ++ c ++ (0 : BitVec 4) ++ o)) = .flush ↔ o = 0x8#4 := by decide
  exact this l.color l.op

end Sys2Proof.Machine
end

