-- ==== Sys2Proof/Laws/Flush.lean ====
section
/-! SUPPORT. The laws of a running `FLUSH`: the row-major sequence by linear index, and everything the
turns of the host and the engine can do while it runs. -/

namespace Sys2Proof.Machine

/-- One row of the row-major sequence is a run of linear indexes (R68). -/
theorem rowMajor_row (cfg : Config) (fb : Memory) (y : Nat) :
    ((List.range cfg.fbW).map fun (x : Nat) =>
      ({ x := BitVec.ofNat 8 x, y := BitVec.ofNat 8 y, color := fb.read (cellIndex cfg x y) } : Transfer)) =
    (List.range' (y * cfg.fbW) cfg.fbW).map (transferAt cfg fb) := by
  rw [List.range'_eq_map_range, List.map_map]
  refine List.map_congr_left fun x hx => ?_
  have hx := List.mem_range.1 hx
  have hw : 0 < cfg.fbW := Nat.zero_lt_of_lt hx
  simp [transferAt, cellIndex, Nat.mod_eq_of_lt hx, Nat.add_div_of_dvd_right,
    Nat.mul_div_cancel _ hw, Nat.div_eq_of_lt hx]

/-- The row-major sequence is the transfers of the linear indexes in order (R68, R160). -/
theorem rowMajor_eq (cfg : Config) (fb : Memory) :
    rowMajor cfg fb = (List.range cfg.cells).map (transferAt cfg fb) := by
  have h : ∀ n : Nat, ((List.range n).flatMap fun (y : Nat) => (List.range cfg.fbW).map fun (x : Nat) =>
      ({ x := BitVec.ofNat 8 x, y := BitVec.ofNat 8 y, color := fb.read (cellIndex cfg x y) } : Transfer)) =
      (List.range (n * cfg.fbW)).map (transferAt cfg fb) := by
    intro n
    induction n with
    | zero => simp
    | succ n ih =>
      rw [List.range_succ, List.flatMap_append, ih, List.flatMap_singleton, rowMajor_row, Nat.succ_mul,
        ← List.map_append, List.range_eq_range', List.range_eq_range', ← List.range'_append_1, Nat.zero_add]
  rw [rowMajor, h, Nat.mul_comm]
  rfl

/-- A `FLUSH` makes one transfer for each cell (R160). -/
theorem rowMajor_length (cfg : Config) (fb : Memory) : (rowMajor cfg fb).length = cfg.cells := by
  simp [rowMajor_eq]

/-- The transfer of the cell under the cursor is the next of the sequence (R160). -/
theorem rowMajor_take_succ (cfg : Config) (fb : Memory) {k : Nat} (h : k < cfg.cells) :
    (rowMajor cfg fb).take (k + 1) = (rowMajor cfg fb).take k ++ [transferAt cfg fb k] := by
  rw [List.take_add_one, List.getElem?_eq_getElem (by simpa [rowMajor_length] using h)]
  simp [rowMajor_eq]

/-- Everything the host's turn can do while the FBR is busy (R60, R61): its own side of the access. -/
theorem hostTurn_of_busy {s t : State} (hb : s.busy = true) (h : hostTurn s = .next t) :
    t = { s with program := t.program, pending := t.pending, reads := t.reads } ∧
      t.program.Sublist s.program := by
  rcases hostTurn_cases s with ⟨a, -, -, e⟩ | ⟨a, -, hn, -⟩ | ⟨-, -, e⟩ | ⟨rest, -, hp, e⟩ |
    ⟨a, rest, -, hp, -, -, e⟩ | ⟨a, rest, -, hp, -, hh, e⟩ | ⟨a, rest, -, -, -, e⟩
  · cases e.symm.trans h; exact ⟨rfl, .refl _⟩
  · simp [hb] at hn
  · cases e.symm.trans h; exact ⟨rfl, .refl _⟩
  · cases e.symm.trans h; simp [recordRead, hb]
  · cases e.symm.trans h; simp [hp]
  · cases a with
    | read addr width => cases e.symm.trans h; simp [complete, recordRead, hp]
    | write addr width w => simp [held_write, hb] at hh
  · cases e.symm.trans h

/-- Everything the engine's turn can do while it runs `FLUSH` (R162). -/
theorem engineTurn_of_flush {s : State} (he : s.eng = .running) (ho : s.latch.op = 0x8#4) :
    engineTurn s = execFlush s := by
  simp [engineTurn, he, (decode_latch_flush _).2 ho, exec]

end Sys2Proof.Machine
end

