-- ==== Sys2Proof/Laws/Operands.lean ====
section
/-! SUPPORT. The laws of the operand forms and of the packing. -/

namespace Sys2Proof.Machine

theorem lowHalf_append (a b : Half) : lowHalf (a ++ b) = b := by
  apply BitVec.eq_of_getLsbD_eq
  intro i hi
  rw [lowHalf, BitVec.getLsbD_extractLsb', BitVec.getLsbD_append]
  simp [hi]

theorem highHalf_append (a b : Half) : highHalf (a ++ b) = a := by
  apply BitVec.eq_of_getLsbD_eq
  intro i hi
  rw [highHalf, BitVec.getLsbD_extractLsb', BitVec.getLsbD_append]
  simp [hi]

/-- A signed half is in -32768 to 32767 (R10). -/
theorem sext16_bounds (h : Half) : -32768 ≤ sext16 h ∧ sext16 h ≤ 32767 := by
  have h1 := BitVec.toInt_lt (x := h)
  have h2 := BitVec.le_toInt (x := h)
  unfold sext16
  norm_num at h1 h2
  omega

/-- An unsigned half is in 0 to 65535 (R10). -/
theorem zext16_le (h : Half) : zext16 h ≤ 65535 := Nat.le_of_lt_succ h.isLt

end Sys2Proof.Machine
end

