-- ==== Sys2Proof/Laws/PerInstr.lean ====
section
/-! SUPPORT. The family OwnRow: the encoded word of a well-formed command matches exactly one row of
the opcode table, its own (R86). One lemma per constructor. -/

namespace Sys2Proof.Laws.OwnRow

def Statement (i : Instr) : Prop :=
  i.wf = true →
    (opcodeRows.filter fun r => r.matchesWord (encode i)).map OpcodeRow.mnemonic = [i.mnemonic]

theorem nop : Statement .nop := fun _ => by decide

theorem clear : Statement .clear := fun _ => by decide

theorem setpix (color : Nat) : Statement (.setpix color) := fun h => by
  have hc : color < 256 := of_decide_eq_true h
  clear h
  revert hc color
  decide +kernel

theorem getpix : Statement .getpix := fun _ => by decide

theorem line (color : Nat) : Statement (.line color) := fun h => by
  have hc : color < 256 := of_decide_eq_true h
  clear h
  revert hc color
  decide +kernel

theorem rect (color : Nat) : Statement (.rect color) := fun h => by
  have hc : color < 256 := of_decide_eq_true h
  clear h
  revert hc color
  decide +kernel

theorem fillrect (color : Nat) : Statement (.fillrect color) := fun h => by
  have hc : color < 256 := of_decide_eq_true h
  clear h
  revert hc color
  decide +kernel

theorem circle (color : Nat) : Statement (.circle color) := fun h => by
  have hc : color < 256 := of_decide_eq_true h
  clear h
  revert hc color
  decide +kernel

theorem flush : Statement .flush := fun _ => by decide

theorem reserved9 : Statement .reserved9 := fun _ => by decide

theorem reservedAB (op : Nat) : Statement (.reservedAB op) := fun h => by
  have hop : op = 0xA ∨ op = 0xB := by simpa [Instr.wf] using h
  rcases hop with rfl | rfl <;> decide

theorem reservedCF (op : Nat) : Statement (.reservedCF op) := fun h => by
  have hop : 0xC ≤ op ∧ op ≤ 0xF := by simpa [Instr.wf] using h
  obtain ⟨h1, h2⟩ := hop
  interval_cases op <;> decide

end Sys2Proof.Laws.OwnRow
end

