-- ==== Sys2Proof/Laws/Reset.lean ====
section
/-! SUPPORT. The unspecified contents of `fb` after `RST` are in canonical form and in the grid,
whatever they are. -/

namespace Sys2Proof.Machine

theorem foldl_write_wf (f : Nat → Color) (l : List Nat) (m : Memory) (h : m.wf = true) :
    (l.foldl (fun m i => Memory.write m i (f i)) m).wf = true := by
  induction l generalizing m with
  | nil => exact h
  | cons i l ih => exact ih _ (Memory.wf_write i (f i) h)

theorem mem_foldl_write (f : Nat → Color) (l : List Nat) (m : Memory) {p : Nat × Color}
    (h : p ∈ l.foldl (fun m i => Memory.write m i (f i)) m) : p.1 ∈ l ∨ p ∈ m := by
  induction l generalizing m with
  | nil => exact .inr h
  | cons i l ih =>
    rcases ih _ h with h | h
    · exact .inl (List.mem_cons_of_mem _ h)
    · rcases Memory.mem_write h with h | h
      · exact .inl (h ▸ List.mem_cons_self)
      · exact .inr h

theorem unspecifiedFb_wf (cfg : Config) (draw : Nat) : (unspecifiedFb cfg draw).wf = true :=
  foldl_write_wf _ _ [] rfl

theorem unspecifiedFb_inGrid (cfg : Config) (draw : Nat) :
    ∀ p ∈ unspecifiedFb cfg draw, p.1 < cfg.cells := fun p hp => by
  rcases mem_foldl_write _ _ [] hp with h | h
  · exact List.mem_range.1 h
  · cases h

end Sys2Proof.Machine
end

