-- ==== Sys2Proof/Laws/Run.lean ====
section
/-! SUPPORT. A run, step by step: the one place where `Host.Core.run` is unfolded. -/

namespace Sys2Proof.Machine

/-- A run of one step more, of any machine. -/
theorem coreRun_succ_next (M : Host.Core) (n : Nat) (s t : M.State) :
    M.run (n + 1) s = .next t ↔ ∃ u, M.step s = .next u ∧ M.run n u = .next t := by
  rw [Host.Core.run]
  cases M.step s <;> simp

/-- A run of one step more: a step that answers a next state, and the run from there. -/
theorem run_succ_next {n : Nat} {s t : State} :
    Host.Core.run Sys2Proof.core (n + 1) s = .next t ↔
      ∃ u, step s = .next u ∧ Host.Core.run Sys2Proof.core n u = .next t :=
  coreRun_succ_next Sys2Proof.core n s t

/-- A run of no step. -/
theorem run_zero_next {s t : State} : Host.Core.run Sys2Proof.core 0 s = .next t ↔ s = t :=
  ⟨fun h => by cases h; rfl, fun h => h ▸ rfl⟩

end Sys2Proof.Machine
end

