-- ==== Sys2Proof/Tests/Slice0.lean ====
section
/-! SUPPORT. The model's own tests. Expected results come from the vectors and worked encodings of
spec/ (`95_test_vectors.md`, R93), never from the model; each test names its source. The last part
shows, for every statement with hypotheses, that something meets them. -/

namespace Sys2Proof.Tests

open Sys2Proof.Machine

/-! ### Helpers -/

/-- The machine idle after reset and the reset clear. -/
def idleState : State := { State.reset with eng := .idle, busy := false }

/-- Idle, with a grid of its own. -/
def gridState (w h : Nat) : State := { idleState with cfg := { Config.reference with fbW := w, fbH := h } }

/-- `s` with operands written and the `CMD` word accepted. -/
def issued (s : State) (arg0 arg1 cmd : Word) : State :=
  startCommand cmd { s with arg0 := arg0, arg1 := arg1 }

/-- The state after one step, if there is one; otherwise `s` itself. -/
def after (s : State) : State :=
  match step s with
  | .next t => t
  | _ => s

/-- The counters after one step, `P/W` of `95_test_vectors.md`; -1 where the step stops. -/
def countersAfter (s : State) : Int × Int :=
  match step s with
  | .next t => (t.plotcnt.toNat, t.wrcnt.toNat)
  | _ => (-1, -1)

/-- The colours of some cells after one step. -/
def cellsAfter (s : State) (ps : List (Int × Int)) : List Color :=
  ps.map fun p => (after s).cell p.1 p.2

/-- A host about to make one access while idle. -/
def accessing (s : State) (a : Access) : State := { s with program := [.access a] }

/-! ### Well-formedness: one ill-formed term for each check -/

theorem test_wf_setpix_color : (Instr.setpix 256).wf = false := by decide
theorem test_wf_line_color : (Instr.line 256).wf = false := by decide
theorem test_wf_rect_color : (Instr.rect 256).wf = false := by decide
theorem test_wf_fillrect_color : (Instr.fillrect 256).wf = false := by decide
theorem test_wf_circle_color : (Instr.circle 256).wf = false := by decide
theorem test_wf_reservedAB_op : (Instr.reservedAB 9).wf = false ∧ (Instr.reservedAB 12).wf = false := by decide
theorem test_wf_reservedCF_op : (Instr.reservedCF 11).wf = false ∧ (Instr.reservedCF 16).wf = false := by decide
theorem test_wf_widest : (Instr.setpix 255).wf = true ∧ (Instr.reservedCF 15).wf = true := by decide

/-! ### Decoding: every row by a word written out from the spec's encoding (R80, R86) -/

theorem test_decode_nop : decode 0b00000000000000000000000000000000 = .nop := by decide
theorem test_decode_clear : decode 0b00000000000000000000000000000001 = .clear := by decide
/-- R93: `SETPIX 3, 4, 0x07`. -/
theorem test_decode_setpix : decode 0b00000000000000000000011100000010 = .setpix 7 := by decide
/-- R93: `GETPIX`. -/
theorem test_decode_getpix : decode 0b00000000000000000000000000000011 = .getpix := by decide
/-- R93: `LINE` in colour 3. -/
theorem test_decode_line : decode 0b00000000000000000000001100000100 = .line 3 := by decide
/-- R93: `RECT` in colour 1. -/
theorem test_decode_rect : decode 0b00000000000000000000000100000101 = .rect 1 := by decide
/-- R93: `FILLRECT` in colour 2. -/
theorem test_decode_fillrect : decode 0b00000000000000000000001000000110 = .fillrect 2 := by decide
/-- R93: `CIRCLE` in colour 1. -/
theorem test_decode_circle : decode 0b00000000000000000000000100000111 = .circle 1 := by decide
theorem test_decode_flush : decode 0b00000000000000000000000000001000 = .flush := by decide
theorem test_decode_reserved9 : decode 0b00000000000000000000001100001001 = .reserved9 := by decide
theorem test_decode_reservedAB : decode 0b00000000000000000000000000001011 = .reservedAB 11 := by decide
theorem test_decode_reservedCF : decode 0b00000000000000000000001100001111 = .reservedCF 15 := by decide
/-- V-F15: ignored bits set, `COLOR = 0x01`. -/
theorem test_decode_ignored_bits : decode 0xABCD0172 = .setpix 1 := by decide
/-- R55: lane 0 carries bits 7:0; R53: fewer than four bytes are no command. -/
theorem test_decode_bytes : decodeBytes [0x02, 0x07, 0x00, 0x00, 0xEE] = .ok (.setpix 7, [0xEE]) ∧
    decodeBytes [0x02, 0x07, 0x00] = .error .truncated := by decide
/-- R93, the other direction. -/
theorem test_encode_words : encode (.setpix 2) = 0x00000202 ∧ encode (.line 3) = 0x00000304 ∧
    encode (.circle 1) = 0x00000107 ∧ encode .flush = 0x00000008 := by decide
/-- R84, R85, R93: packed operands. -/
theorem test_packing : packPoint (-1) 3 = 0x0003FFFF ∧ packPoint 10 8 = 0x0008000A ∧
    packSize 4 4 = 0x00040004 ∧ packRadius 3 = 0x00000003 := by decide
/-- R90, P2 lines 1 and 2: the accesses of `SETPIX -1, 5, 3`. -/
theorem test_expand_setpix : expand Config.reference (.setpix (-1) 5 3) =
    [.access (.write 0x0C .word 0x0005FFFF), .access (.write 0x08 .word 0x00000302)] := by decide

/-! ### Commands (vectors of `95_test_vectors.md`) -/

/-- V-F10. -/
theorem test_nop : countersAfter (issued { idleState with plotcnt := 6, wrcnt := 5 } 0 0 0xFFFFFF00) = (6, 5) ∧
    (after (issued idleState 0 0 0xFFFFFF00)).busy = false := by decide
/-- V-F24: `CLEAR` with `COLOR = 3` keeps counters and `PIXDATA`. -/
theorem test_clear :
    let s := { gridState 4 3 with fb := [(0, 2), (5, 1), (11, 3)], plotcnt := 16, wrcnt := 16, pixdata := 0x100 }
    (after (issued s 0 0 0x00000301)).fb = [] ∧ countersAfter (issued s 0 0 0x00000301) = (16, 16) ∧
      (after (issued s 0 0 0x00000301)).pixdata = 0x100 := by decide
/-- V-F13: the colour 0x07 is stored as 3. -/
theorem test_setpix_masks : cellsAfter (issued idleState 0x00040003 0 0x00000702) [(3, 4), (4, 3)] = [3, 0] ∧
    countersAfter (issued idleState 0x00040003 0 0x00000702) = (1, 1) := by decide
/-- V-F17: y = -1 is dropped. -/
theorem test_setpix_dropped : (after (issued idleState 0xFFFF0000 0 0x00000302)).fb = [] ∧
    countersAfter (issued idleState 0xFFFF0000 0 0x00000302) = (1, 0) := by decide
/-- V-F21. -/
theorem test_getpix_cell :
    (after (issued { idleState with fb := [(33, 3)] } 0x00010001 0 3)).pixdata = 0x00000003 := by decide
/-- V-F20: `GETPIX 32, 0` and `GETPIX 0, 16`. -/
theorem test_getpix_sentinel : (after (issued idleState 0x00000020 0 3)).pixdata = 0x00000100 ∧
    (after (issued idleState 0x00100000 0 3)).pixdata = 0x00000100 := by decide
/-- V-L7: the cells of 0,0 to 6,2. -/
theorem test_line_cells : (after (issued idleState 0 0x00020006 0x00000104)).fb =
    [(0, 1), (1, 1), (34, 1), (35, 1), (36, 1), (69, 1), (70, 1)] := by decide +kernel
/-- V-L14: 30,14 to 34,17 leaves the grid. -/
theorem test_line_clipped : countersAfter (issued idleState 0x000E001E 0x00110022 0x00000104) = (5, 2) := by
  decide +kernel
/-- V-R8: a box over the corner of the grid. -/
theorem test_rect_clipped : countersAfter (issued idleState 0x000E001E 0x00040004 0x00000105) = (16, 4) := by
  decide +kernel
/-- V-R4: a box one cell wide is one segment. -/
theorem test_rect_segment : countersAfter (issued idleState 0x00030003 0x00040001 0x00000105) = (4, 4) ∧
    cellsAfter (issued idleState 0x00030003 0x00040001 0x00000105) [(3, 2), (3, 3), (3, 6), (3, 7)] =
      [0, 1, 1, 0] := by decide +kernel
/-- V-FR5: -2,-2 of size 3 by 3 writes (0,0) only. -/
theorem test_fillrect_clipped : (after (issued idleState 0xFFFEFFFE 0x00030003 0x00000206)).fb = [(0, 2)] ∧
    countersAfter (issued idleState 0xFFFEFFFE 0x00030003 0x00000206) = (9, 1) := by decide +kernel
/-- V-FR2: height 0. -/
theorem test_fillrect_empty : countersAfter (issued idleState 0 0x00000003 0x00000206) = (0, 0) := by
  decide +kernel
/-- V-C6: the ten cells of the circle at 2,2 of radius 3. -/
theorem test_circle_clipped : cellsAfter (issued idleState 0x00020002 0x00000003 0x00000107)
      [(0, 1), (0, 3), (1, 0), (1, 4), (2, 5), (3, 0), (3, 4), (4, 1), (4, 3), (5, 2)] =
        List.replicate 10 1 ∧
    countersAfter (issued idleState 0x00020002 0x00000003 0x00000107) = (16, 12) := by decide +kernel
/-- V-C1, with `ARG1[31:16]` set (R83: ignored). -/
theorem test_circle_point : (after (issued idleState 0x0008000A 0xFFFF0000 0x00000107)).fb = [(266, 1)] ∧
    countersAfter (issued idleState 0x0008000A 0xFFFF0000 0x00000107) = (8, 8) := by decide +kernel
/-- V-FL2 on a grid of 2 by 2: row-major order, the colours of the cells. -/
theorem test_flush_order :
    (match Host.Core.run core 9 { issued { gridState 2 2 with fb := [(0, 1), (3, 2)] } 0 0 8 with
        turns := flushTurns 4 } with
      | .next t => t.trace
      | _ => []) = [⟨0, 0, 1⟩, ⟨1, 0, 0⟩, ⟨0, 1, 0⟩, ⟨1, 1, 2⟩] := by decide +kernel
/-- V-FL3: an offered transfer the sink never accepts. -/
theorem test_flush_waits :
    let s := after (issued idleState 0 0 8)
    s.snk.valid = true ∧ s.busy = true ∧ after { s with turns := [.engine] } = s := by decide
/-- V-F11. -/
theorem test_reserved9 : countersAfter (issued { idleState with plotcnt := 6, wrcnt := 6 } 0 0 0x00000309) = (6, 6) := by decide
theorem test_reservedAB : countersAfter (issued { idleState with plotcnt := 6, wrcnt := 6 } 0 0 0x0000000A) = (6, 6) := by decide
theorem test_reservedCF : countersAfter (issued { idleState with plotcnt := 6, wrcnt := 6 } 0 0 0x0000030F) = (6, 6) := by decide

/-! ### The register window -/

/-- V-F1, V-F2: `ID`. -/
theorem test_id : idWord Config.reference = 0xFB001020 ∧
    idWord { Config.reference with fbW := 8, fbH := 255 } = 0xFB00FF08 := by decide
/-- R23, R25, R26, R32: one read at each offset of the map, at reserved ones and at the last. -/
theorem test_read_map :
    let s := { issued idleState 5 6 0 with pixdata := 7, plotcnt := 8, wrcnt := 9 }
    [0x00, 0x04, 0x08, 0x0C, 0x10, 0x14, 0x18, 0x1C, 0x20, 0xFC, 0xFF].map
        (fun k => (readData s (s.cfg.base + k) .word).toNat) =
      [0xFB001020, 1, 0, 5, 6, 7, 8, 9, 0, 0, 0] := by decide
/-- V-F7: an 8-bit write to `CMD` starts nothing. -/
theorem test_narrow_write : (after (accessing idleState (.write 0x08 .byte 2))).eng = .idle ∧
    (after (accessing idleState (.write 0x08 .threeBytes 2))).eng = .idle := by decide
/-- V-F8: a misaligned write has no effect, a misaligned read returns 0. -/
theorem test_misaligned : (after (accessing idleState (.write 0x0A .word 0x202))).eng = .idle ∧
    (after (accessing { idleState with arg0 := 3 } (.read 0x0E .word))).reads = [0] := by decide
/-- V-F6: a write to `PLOTCNT` is ignored. -/
theorem test_read_only : (after (accessing idleState (.write 0x18 .word 5))).plotcnt = 0 := by decide
/-- V-F4: `ARG0` keeps every bit and starts nothing. -/
theorem test_arg0 : (after (accessing idleState (.write 0x0C .word 0x1234ABCD))).arg0 = 0x1234ABCD ∧
    (after (accessing idleState (.write 0x0C .word 0x1234ABCD))).eng = .idle := by decide
/-- R56, R187: after a `CMD` write `BUSY` is 1 until the engine's step. -/
theorem test_busy : (after (accessing idleState (.write 0x08 .word 0))).busy = true ∧
    (after (after (accessing idleState (.write 0x08 .word 0)))).busy = false := by decide
/-- V-F28: `ID` is not held while the reset clear runs. -/
theorem test_id_not_held : (after { accessing State.reset (.read 0x00 .word) with turns := [.host] }).reads =
    [0xFB001020] := by decide
/-- V-RS1: a read of `ARG0` is held while the reset clear runs, then returns 0. -/
theorem test_held :
    let s := after { accessing State.reset (.read 0x0C .word) with turns := [.host] }
    s.reads = [] ∧ (after (after s)).reads = [0] := by decide +kernel
/-- V-FL4, on a grid of 2 by 2: a reset leaves the transfers accepted before it, and nothing else. -/
theorem test_reset_abandons_flush :
    (match Host.Core.run core 3 { issued { gridState 2 2 with fb := [(0, 1)], plotcnt := 1 } 0 0 8 with
        turns := [.engine, .sink, .reset] } with
      | .next t => (t.trace, t.snk.valid, t.plotcnt, t.busy)
      | _ => ([], true, 1, false)) = ([⟨0, 0, 1⟩], false, 0, true) := by decide +kernel
/-- Log 16: a table word placed by `withFetchWord` at reset is run by the very next step. -/
theorem test_withFetchWord : (after (State.reset.withFetchWord 32 0x00000302)).fb = [(0, 3)] ∧
    decodeTableWord 32 0x00000302 = some (.setpix 3) := by decide +kernel

/-! ### Witnesses: the hypotheses of each statement can be met together -/

theorem test_witness_DecodeEncodeRoundTrip :
    (Instr.setpix 255).wf = true ∧ (Instr.reservedAB 10).wf = true ∧ (Instr.reservedAB 11).wf = true ∧
      (Instr.reservedCF 12).wf = true ∧ (Instr.reservedCF 15).wf = true := by decide
theorem test_witness_EncodeDecodeKeepsFields :
    decode 0x0000FF02 = .setpix 255 ∧ decode 0x0000FF04 = .line 255 ∧ decode 0x0000FF05 = .rect 255 ∧
      decode 0x0000FF06 = .fillrect 255 ∧ decode 0x0000FF07 = .circle 255 := by decide
theorem test_witness_OpAloneSelectsCommand :
    ∃ v w : Word, v ≠ w ∧ cmdOp v = cmdOp w := ⟨0x00000002, 0xFFFFFFF2, by decide⟩
theorem test_witness_IgnoredBitsHaveNoEffect :
    ∃ v w : Word, v ≠ w ∧ cmdOp v = cmdOp w ∧ v.extractLsb' 8 2 = w.extractLsb' 8 2 :=
  ⟨0x00000102, 0xFFFFFDF2, by decide⟩
theorem test_witness_StepRunsLatchedCommand :
    ∃ s : State, s.cfg.legal = true ∧ nextTurn s = .engine ∧ s.eng = .running :=
  ⟨issued idleState 0 0 0x102, by decide⟩
theorem test_witness_FetchWordRunsTableInstr :
    ∃ (s : State) (nbits w : Nat) (i : Instr), s.cfg.legal = true ∧ decodeTableWord nbits w = some i :=
  ⟨State.reset, 32, 0x00000107, .circle 1, by decide⟩
theorem test_witness_ClearTurnsEveryCellOff :
    ∃ (s : State) (x y : Int), s.fb.wf = true ∧ inRange s.cfg x y = true ∧ s.cell x y ≠ Color.off :=
  ⟨{ idleState with fb := [(511, 3)] }, 31, 15, by decide⟩
theorem test_witness_ClearEmptiesCanonicalBuffer :
    ∃ s : State, s.fb.wf = true ∧ (∀ p ∈ s.fb, p.1 < s.cfg.cells) ∧ s.fb ≠ [] :=
  ⟨{ idleState with fb := [(0, 1), (511, 3)] }, by decide⟩
/-- R110 at the four edges of the grid, one cell inside and one outside. -/
theorem test_witness_PlotIsBoundsChecked :
    idleState.fb.wf = true ∧ inRange idleState.cfg 0 0 = true ∧ inRange idleState.cfg 31 15 = true ∧
      inRange idleState.cfg (-1) 0 = false ∧ inRange idleState.cfg 32 0 = false ∧
      inRange idleState.cfg 0 (-1) = false ∧ inRange idleState.cfg 0 16 = false := by decide
theorem test_witness_SetpixWritesMaskedColour :
    (∃ s : State, inRange s.cfg (pointX s) (pointY s) = false) ∧
      ∃ (s : State) (x y : Int), s.fb.wf = true ∧ inRange s.cfg x y = true ∧ x = pointX s ∧ y = pointY s :=
  ⟨⟨issued idleState 0x00000020 0 2, by decide⟩, issued idleState 0x000F001F 0 2, 31, 15, by decide⟩
theorem test_witness_GetpixReadsCellOrSentinel :
    (∃ s : State, inRange s.cfg (pointX s) (pointY s) = true) ∧
      ∃ s : State, inRange s.cfg (pointX s) (pointY s) = false :=
  ⟨⟨issued idleState 0x000F001F 0 3, by decide⟩, issued idleState 0x0000FFFF 0 3, by decide⟩
theorem test_witness_SetThenGetGivesMaskedColour :
    ∃ (s t : State) (color : Nat), s.fb.wf = true ∧ inRange s.cfg (pointX s) (pointY s) = true ∧
      exec (.setpix color) s = .next t :=
  ⟨issued idleState 0 0 2, _, 7, by decide, by decide, rfl⟩
theorem test_witness_CommandsReadTheLatchOnly :
    ∃ (i : Instr) (s t : State), exec i s = .next t := ⟨.line 1, issued idleState 0 0 4, _, rfl⟩
/-- R84, R85 at both ends of the encodable ranges. -/
theorem test_witness_PackedOperandsReadBack :
    sext16 (lowHalf (packPoint (-32768) 32767)) = -32768 ∧
      sext16 (highHalf (packPoint (-32768) 32767)) = 32767 ∧
      zext16 (lowHalf (packSize 65535 0)) = 65535 ∧ zext16 (highHalf (packSize 65535 0)) = 0 ∧
      zext16 (lowHalf (packRadius 65535)) = 65535 := by decide
theorem test_witness_ExpansionLoadsOperands :
    ∃ (x y x1 y1 : Int) (w h r c : Nat), -32768 ≤ x ∧ x ≤ 32767 ∧ -32768 ≤ y ∧ y ≤ 32767 ∧
      -32768 ≤ x1 ∧ x1 ≤ 32767 ∧ -32768 ≤ y1 ∧ y1 ≤ 32767 ∧ w ≤ 65535 ∧ h ≤ 65535 ∧ r ≤ 65535 ∧ c ≤ 255 :=
  ⟨-32768, 32767, 32767, -32768, 65535, 0, 65535, 255, by decide⟩
/-- An idle FBR whose host is about to issue the longest expansion. -/
theorem test_witness_ExpansionLoadsOperands_idle :
    ∃ (s : State) (rest : List HostOp) (ts : List Agent), s.cfg.legal = true ∧ s.busy = false ∧
      s.pending = none ∧ s.program = expand s.cfg (.line (-1) 0 5 6 2) ++ rest ∧
      s.turns = List.replicate 3 .host ++ ts :=
  ⟨{ idleState with program := expand Config.reference (.line (-1) 0 5 6 2), turns := [.host, .host, .host] }, [],
    [], by decide⟩
/-- P2: `GETPIX` at a corner of the grid, with its `RD` held for two host turns. -/
theorem test_witness_GetpixExpansionReadsItsResult :
    ∃ (s : State) (rest : List HostOp) (ts : List Agent), s.cfg.legal = true ∧ s.busy = false ∧ s.pending = none ∧
      s.program = expand s.cfg (.getpix 31 15) ++ rest ∧
      s.turns = [.host, .host] ++ List.replicate 2 .host ++ [.engine, .host] ++ ts :=
  ⟨{ idleState with
      program := expand Config.reference (.getpix 31 15)
      turns := [.host, .host, .host, .host, .engine, .host] }, [], [], by decide⟩
theorem test_witness_LineDrawsBresenham :
    ∃ (s : State) (x y : Int), s.fb.wf = true ∧ inRange s.cfg x y = true ∧
      ({ x := x, y := y } : Point) ∈ linePlots (pointX s) (pointY s) (endX s) (endY s) :=
  ⟨issued idleState 0 0x00010002 0x104, 2, 1, by decide +kernel⟩
/-- V-L5 and its transpose: a step of each major axis. -/
theorem test_witness_LineSequenceIsConnected :
    ((linePlots 0 0 2 1)[0]? = some ⟨0, 0⟩ ∧ (linePlots 0 0 2 1)[1]? = some ⟨1, 0⟩) ∧
      (linePlots 0 0 1 2)[0]? = some ⟨0, 0⟩ ∧ (linePlots 0 0 1 2)[1]? = some ⟨0, 1⟩ := by decide +kernel
theorem test_witness_LoopsEndByTheirOwnTests :
    ∃ n r : Nat, lineBound (lineStart 0 0 2 1) ≤ n ∧ r + 2 ≤ n := ⟨100, 3, by decide⟩
/-- R140: an empty box, a segment, the smallest and the largest outline, a cell on it and one off. -/
theorem test_witness_RectDrawsOutline :
    sizeW (issued idleState 0 0x00050000 5) = 0 ∧ sizeH (issued idleState 0 0x00000005 5) = 0 ∧
      (sizeW (issued idleState 0 0x00040001 5) = 1 ∧ sizeH (issued idleState 0 0x00040001 5) = 4) ∧
      (sizeW (issued idleState 0 0x00020002 5) = 2 ∧ sizeH (issued idleState 0 0x00020002 5) = 2) ∧
      (sizeW (issued idleState 0 0xFFFFFFFF 5) = 65535 ∧ sizeH (issued idleState 0 0xFFFFFFFF 5) = 65535) ∧
      onOutline 0 0 3 3 ⟨2, 1⟩ ∧ ¬ onOutline 0 0 3 3 ⟨1, 1⟩ ∧ ¬ onOutline 0 0 3 3 ⟨3, 1⟩ := by
  refine ⟨by decide, by decide, by decide, by decide, by decide, ?_, ?_, ?_⟩ <;> simp [onOutline]
theorem test_witness_FillrectFillsClippedSpan :
    idleState.fb.wf = true ∧ inRange idleState.cfg 31 15 = true ∧ inSpan 30 14 4 4 ⟨31, 15⟩ ∧
      ¬ inSpan 30 14 4 4 ⟨29, 15⟩ ∧ ¬ inSpan 0 0 0 3 ⟨0, 0⟩ := by
  refine ⟨by decide, by decide, ?_, ?_, ?_⟩ <;> simp [inSpan]
/-- V-C3: (11,8) is on the circle at 10,8 of radius 1; a state of radius 0. -/
theorem test_witness_CircleDrawsMidpointCircle :
    radius (issued idleState 0 0xFFFF0000 7) = 0 ∧ idleState.fb.wf = true ∧
      inRange idleState.cfg 11 8 = true ∧ (⟨11, 8⟩ : Point) ∈ circlePlots 10 8 1 := by decide +kernel
/-- S6: (13,8) is on the circle at 10,8 of radius 3. -/
theorem test_witness_CircleIsEightWaySymmetric : (⟨10 + 3, 8 + 0⟩ : Point) ∈ circlePlots 10 8 3 := by
  decide +kernel
/-- S6: the two iterations of radius 3. -/
theorem test_witness_CircleArcHasNoGap :
    (circleIterations 3)[0]? = some ⟨3, 0, 0, 0⟩ ∧ ((circleIterations 3)[1]?).map (fun v => (v.x, v.y)) = some (2, 1) ∧
      (circleIterations 3)[2]? = none ∧ ((circleIterations 3).getLast?).isSome = true := by decide +kernel
theorem test_witness_CountersDescribeLastDrawing :
    ∃ s t : State, exec .flush s = .next t := ⟨issued idleState 0 0 8, _, rfl⟩
theorem test_witness_WrcntNeverExceedsPlotcnt :
    ∃ (i : Instr) (s t : State), i = .circle 1 ∧ exec i s = .next t :=
  ⟨.circle 1, issued idleState 0 0 7, _, rfl, rfl⟩
theorem test_witness_CommandsAreIdempotent :
    ∃ (i : Instr) (s t : State), i ≠ .flush ∧ s.fb.wf = true ∧ exec i s = .next t :=
  ⟨.fillrect 2, issued idleState 0 0x00040004 6, _, by decide, by decide, rfl⟩
theorem test_witness_OnlyFlushDrivesSink :
    ∃ (i : Instr) (s t : State), i ≠ .flush ∧ exec i s = .next t :=
  ⟨.clear, issued idleState 0 0 1, _, by decide, rfl⟩
theorem test_witness_WorkingVariablesUnobservable :
    ∃ s t : State, SameVisible s t ∧ s ≠ t :=
  ⟨idleState, idleState.setEdge 3, ⟨rfl, by decide⟩, by decide⟩
theorem test_witness_FlushOffersThenWaits :
    (∃ s : State, s.snk.valid = false ∧ s.work.cursor + 1 = s.cfg.cells) ∧ (∃ s : State, s.snk.valid = true) ∧
      ∃ s : State, s.snk.valid = false ∧ s.cfg.cells = s.work.cursor :=
  ⟨⟨idleState.setCursor 511, by decide⟩, ⟨offerTransfer idleState, by decide⟩, idleState.setCursor 512, by decide⟩
theorem test_witness_SinkAcceptsOfferedTransferOnce :
    (∃ s : State, s.cfg.legal = true ∧ nextTurn s = .sink ∧ s.snk.valid = true) ∧
      ∃ s : State, s.cfg.legal = true ∧ nextTurn s = .sink ∧ s.snk.valid = false :=
  ⟨⟨(offerTransfer idleState).setTurns [.sink], by decide⟩, idleState.setTurns [.sink], by decide⟩
theorem test_witness_FlushSendsBufferRowMajor :
    ∃ (s : State) (ts : List Agent), s.cfg.legal = true ∧ s.eng = .running ∧ s.latch.op = 0x8#4 ∧
      s.work.cursor = 0 ∧ s.snk.valid = false ∧ s.turns = flushTurns s.cfg.cells ++ ts :=
  ⟨(issued (gridState 2 1) 0 0 8).setTurns (flushTurns 2 ++ [.host]), [.host], by decide⟩
/-- U4, on a grid of 2 by 1: a sink edge before the first offer, two delays and a host turn between. -/
theorem test_witness_FlushSendsBufferRowMajor_delays :
    ∃ (s : State) (us ts : List Agent), s.cfg.legal = true ∧ s.busy = true ∧ s.eng = .running ∧
      s.latch.op = 0x8#4 ∧ s.work.cursor = 0 ∧ s.snk.valid = false ∧
      (∀ a, .access a ∈ s.program → inWindow s.cfg a.addr = true) ∧ s.program ≠ [] ∧
      s.turns = us ++ ts ∧ (flushTurns s.cfg.cells).Sublist us ∧ .reset ∉ us :=
  ⟨{ issued (gridState 2 1) 0 0 8 with
      program := [.access (.read 0x14 .word)]
      turns := [.sink, .engine, .engine, .host, .sink, .engine, .engine, .sink, .engine] },
    [.sink, .engine, .engine, .host, .sink, .engine, .engine, .sink, .engine], [], by decide, by decide, by decide,
    by decide, by decide, by decide, by intro a h; simp at h; subst h; decide, by decide, by decide, by decide,
    by decide⟩
/-- R162, R165: a `FLUSH` with one transfer accepted and the next one offered, about to be abandoned. -/
theorem test_witness_FlushTransfersArePrefix :
    ∃ s t : State, FlushUnderWay [] s.fb s ∧ s.snk.valid = true ∧ s.trace ≠ [] ∧ nextTurn s = .reset ∧
      step s = .next t ∧ cmdOp 0xFFFFFFF8 = 0x8#4 :=
  ⟨{ issued (gridState 2 1) 0 0 8 with
      work := { Work.reset with cursor := 1 }
      snk := { valid := true, payload := ⟨1, 0, 0⟩ }
      trace := [⟨0, 0, 0⟩]
      turns := [.reset] }, _,
    ⟨by decide, by decide, by decide, by decide, by decide, by decide, by decide⟩, by decide, by decide, by decide,
    rfl, by decide⟩
theorem test_witness_FlushHangsWithoutSink :
    ∃ s : State, s.busy = true ∧ s.eng = .running ∧ s.latch.op = 0x8#4 ∧ s.work.cursor < s.cfg.cells ∧
      (∀ a ∈ s.turns, a = .host ∨ a = .engine) ∧ (after s).busy = true :=
  ⟨(issued (gridState 2 1) 0 0 8).setTurns [.engine, .host], by decide⟩
theorem test_witness_IdHoldsMagicAndGridSize :
    (gridState 255 255).cfg.legal = true ∧ (gridState 1 1).cfg.legal = true := by decide
/-- R53, R54: a narrow aligned access, and a misaligned word access at the last offset. -/
theorem test_witness_NarrowOrMisalignedHasNoEffect :
    (0x08 ≤ 0xFF ∧ AccessWidth.byte ≠ .word ∧ AccessWidth.threeBytes ≠ .word) ∧ (0xFF ≤ 0xFF ∧ 0xFF % 4 ≠ 0) := by decide
/-- R60, R61 at the two offsets, at their neighbours and for a narrow read. -/
theorem test_witness_OnlyStatusAndIdReadsAreNeverHeld :
    neverHeld Config.reference (.read 0x00 .word) = true ∧ neverHeld Config.reference (.read 0x04 .word) = true ∧
      neverHeld Config.reference (.read 0x08 .word) = false ∧ neverHeld Config.reference (.read 0x01 .word) = false ∧
      neverHeld Config.reference (.read 0x04 .byte) = false := by decide
theorem test_witness_HeldAccess_arrives :
    ∃ (s : State) (a : Access) (rest : List HostOp), s.cfg.legal = true ∧ nextTurn s = .host ∧ s.busy = true ∧
      s.pending = none ∧ s.program = .access a :: rest ∧ inWindow s.cfg a.addr = true ∧ neverHeld s.cfg a = false :=
  ⟨{ accessing State.reset (.write 0xFF .byte 0) with turns := [.host] }, .write 0xFF .byte 0, [], by decide⟩
theorem test_witness_HeldAccess_waits :
    ∃ (s : State) (a : Access), s.cfg.legal = true ∧ nextTurn s = .host ∧ s.busy = true ∧ s.pending = some a :=
  ⟨{ State.reset with pending := some (.read 0x14 .word), turns := [.host] }, .read 0x14 .word, by decide⟩
theorem test_witness_HeldAccess_completes :
    ∃ (s : State) (a : Access), s.cfg.legal = true ∧ nextTurn s = .host ∧ s.busy = false ∧ s.pending = some a :=
  ⟨{ idleState with pending := some (.read 0x14 .word) }, .read 0x14 .word, by decide⟩
theorem test_witness_UnheldAccessCompletesAtOnce :
    ∃ (s : State) (a : Access) (rest : List HostOp), s.cfg.legal = true ∧ nextTurn s = .host ∧ s.pending = none ∧
      s.program = .access a :: rest ∧ inWindow s.cfg a.addr = true ∧ s.busy = true ∧ neverHeld s.cfg a = true :=
  ⟨{ accessing State.reset (.read 0x04 .word) with turns := [.host] }, .read 0x04 .word, [], by decide⟩
theorem test_witness_UnheldAccess_idle :
    ∃ (s : State) (a : Access) (rest : List HostOp), s.cfg.legal = true ∧ nextTurn s = .host ∧ s.pending = none ∧
      s.program = .access a :: rest ∧ inWindow s.cfg a.addr = true ∧ s.busy = false :=
  ⟨accessing idleState (.write 0xFF .word 0), .write 0xFF .word 0, [], by decide⟩
theorem test_witness_WaitPollsStatus :
    (∃ (s : State) (rest : List HostOp), s.cfg.legal = true ∧ nextTurn s = .host ∧ s.pending = none ∧
      s.program = .wait :: rest ∧ s.busy = true) ∧
    ∃ (s : State) (rest : List HostOp), s.cfg.legal = true ∧ nextTurn s = .host ∧ s.pending = none ∧
      s.program = .wait :: rest ∧ s.busy = false :=
  ⟨⟨{ State.reset with program := [.wait], turns := [.host] }, [], by decide⟩,
    { idleState with program := [.wait] }, [], by decide⟩
/-- R52: the first address after the window, and the last one before it. -/
theorem test_witness_AccessOutsideWindowFaults :
    (∃ (s : State) (a : Access) (rest : List HostOp), s.cfg.legal = true ∧ nextTurn s = .host ∧ s.pending = none ∧
      s.program = .access a :: rest ∧ s.cfg.base + 0xFF < a.addr) ∧
    ∃ (s : State) (a : Access) (rest : List HostOp), s.cfg.legal = true ∧ nextTurn s = .host ∧ s.pending = none ∧
      s.program = .access a :: rest ∧ a.addr < s.cfg.base :=
  ⟨⟨accessing idleState (.read 0x100 .word), .read 0x100 .word, [], by decide⟩,
    accessing { idleState with cfg := { Config.reference with base := 0x100 } } (.read 0xFF .word),
    .read 0xFF .word, [], by decide⟩
theorem test_witness_NothingFailsInsideTheWindow :
    ∃ s : State, s.cfg.legal = true ∧
      (∀ a rest, s.program = .access a :: rest → inWindow s.cfg a.addr = true) ∧ s.program ≠ [] :=
  ⟨accessing idleState (.read 0xFF .word), by decide, fun a rest h => by cases h; decide, by decide⟩
theorem test_witness_IllegalParametersAreRefused :
    (gridState 0 16).cfg.legal = false ∧ (gridState 256 16).cfg.legal = false ∧ (gridState 32 0).cfg.legal = false ∧
      (gridState 32 256).cfg.legal = false ∧ ({ Config.reference with base := 0x80 } : Config).legal = false := by decide
theorem test_witness_ResetAbandonsEverything :
    ∃ s : State, s.cfg.legal = true ∧ nextTurn s = .reset := ⟨(issued idleState 1 2 8).setTurns [.reset], by decide⟩
theorem test_witness_ResetClearTurnsAllOff :
    ∃ (s : State) (x y : Int), s.cfg.legal = true ∧ nextTurn s = .engine ∧ s.eng = .clearing ∧ s.fb.wf = true ∧
      inRange s.cfg x y = true ∧ s.cell x y ≠ Color.off :=
  ⟨{ State.reset with fb := [(511, 3)] }, 31, 15, by decide⟩
theorem test_witness_StepKeepsInvariant :
    ∃ s t : State, MachineInv s ∧ step s = .next t ∧ s ≠ t :=
  ⟨State.reset, { State.reset with eng := .idle, busy := false, work := { Work.reset with cursor := 512 } },
    ⟨by decide, by decide, by decide, by decide, by decide, .inr ⟨0, by decide⟩, by decide, by decide, by decide,
      by decide, by decide⟩, by
      rw [show step State.reset = .next (finish (clearCells State.reset)) from rfl]
      exact congrArg _ (by decide +kernel), by decide⟩
theorem test_witness_StepOnlyExtendsObservations :
    ∃ s t : State, step s = .next t :=
  ⟨(offerTransfer (issued idleState 0 0 8)).setTurns [.sink], _, rfl⟩

end Sys2Proof.Tests
end

/-! ## Proofs: parameters, progress and the invariant

The two statements of the family `00_scope`: parameters outside their range are refused (O52), and
every step keeps `MachineInv` (O57). Each agent's turn keeps the invariant by a lemma of its own; what
the engine's commands can do is said once, in `exec_of_ne_flush`. -/

namespace Sys2Proof.Machine

/-! ### The legal parameters -/

/-- The legal range of R8, as propositions. -/
theorem legal_iff {cfg : Config} :
    cfg.legal = true ↔
      1 ≤ cfg.fbW ∧ cfg.fbW ≤ 255 ∧ 1 ≤ cfg.fbH ∧ cfg.fbH ≤ 255 ∧ cfg.base % 256 = 0 := by
  simp [Config.legal, and_assoc]

/-- The transfer of a cell of the grid names that cell: legal sides fit the port's 8 bits (R161). -/
theorem transferAt_inGrid {cfg : Config} (hl : cfg.legal = true) (fb : Memory) {i : Nat}
    (hi : i < cfg.cells) :
    (transferAt cfg fb i).x.toNat < cfg.fbW ∧ (transferAt cfg fb i).y.toNat < cfg.fbH := by
  obtain ⟨hw, -, -, -, -⟩ := legal_iff.1 hl
  have hx : i % cfg.fbW < cfg.fbW := Nat.mod_lt i hw
  have hy : i / cfg.fbW < cfg.fbH := Nat.div_lt_of_lt_mul hi
  simp only [transferAt, BitVec.toNat_ofNat]
  exact ⟨(Nat.mod_le ..).trans_lt hx, (Nat.mod_le ..).trans_lt hy⟩

/-! ### The lengths of the plot sequences -/

theorem linePath_length_le (x1 y1 : Int) (n : Nat) (v : LineVars) :
    (linePath x1 y1 n v).length ≤ n := by
  induction n generalizing v with
  | zero => exact Nat.le_refl 0
  | succ n ih =>
    rw [linePath, List.length_cons]
    split
    · exact Nat.succ_le_succ (Nat.zero_le n)
    · exact Nat.succ_le_succ (ih _)

/-- A line has at most one plot more than its two extents together. -/
theorem linePlots_length_le (x0 y0 x1 y1 : Int) :
    (linePlots x0 y0 x1 y1).length ≤ (x1 - x0).natAbs + (y1 - y0).natAbs + 1 := by
  have h := linePath_length_le x1 y1 (lineBound (lineStart x0 y0 x1 y1)) (lineStart x0 y0 x1 y1)
  have hb : lineBound (lineStart x0 y0 x1 y1) = (x1 - x0).natAbs + (y1 - y0).natAbs + 1 := by
    simp only [lineBound, lineStart]
    omega
  exact hb ▸ h

/-- An outline has at most the plots of its four edges, taken apart from each other. -/
theorem rectPlots_length_le (x y : Int) (w h : Nat) :
    (rectPlots x y w h).length ≤ 2 * w + 2 * h := by
  unfold rectPlots
  split
  · exact Nat.zero_le _
  · split
    · have := linePlots_length_le x y (x + w - 1) (y + h - 1)
      omega
    · have h1 := linePlots_length_le x y (x + w - 1) y
      have h2 := linePlots_length_le (x + w - 1) y (x + w - 1) (y + h - 1)
      have h3 := linePlots_length_le (x + w - 1) (y + h - 1) x (y + h - 1)
      have h4 := linePlots_length_le x (y + h - 1) x y
      simp only [List.length_append]
      omega

@[simp] theorem fillPlots_length (x y : Int) (w h : Nat) : (fillPlots x y w h).length = w * h := by
  simp [fillPlots, fillRow, Nat.mul_comm]

theorem circleStates_length_le (n : Nat) (v : CircleVars) : (circleStates n v).length ≤ n := by
  induction n generalizing v with
  | zero => exact Nat.le_refl 0
  | succ n ih =>
    rw [circleStates]
    split
    · exact Nat.succ_le_succ (ih _)
    · exact Nat.zero_le _

theorem circleCount_le (r : Nat) : circleCount r ≤ r + 2 := circleStates_length_le ..

/-- Eight plots for each iteration (R151). -/
@[simp] theorem circlePlots_length (x0 y0 : Int) (r : Nat) :
    (circlePlots x0 y0 r).length = 8 * circleCount r := by
  simp [circlePlots, octantPlots, circleCount, Nat.mul_comm]

/-! ### What a command but `FLUSH` does -/

/-- No drawing command plots 2^32 times, so `PLOTCNT` never wraps within one (R30, R116). -/
theorem exec_draws_lt {i : Instr} {color : Nat}
    (hi : i = .setpix color ∨ i = .line color ∨ i = .rect color ∨ i = .fillrect color ∨
      i = .circle color) (s : State) :
    ∃ t ps, exec i s = .next t ∧ DrawsExactly (maskColor color) ps s t ∧ ps.length < 2 ^ 32 := by
  have hw : sizeW s ≤ 65535 := zext16_le _
  have hh : sizeH s ≤ 65535 := zext16_le _
  rcases hi with rfl | rfl | rfl | rfl | rfl
  · obtain ⟨t, h, d⟩ := execSetpix_draws color s
    exact ⟨t, _, h, d, by simp⟩
  · obtain ⟨t, h, d⟩ := execLine_draws color s
    have hx0 : -32768 ≤ pointX s ∧ pointX s ≤ 32767 := sext16_bounds _
    have hy0 : -32768 ≤ pointY s ∧ pointY s ≤ 32767 := sext16_bounds _
    have hx1 : -32768 ≤ endX s ∧ endX s ≤ 32767 := sext16_bounds _
    have hy1 : -32768 ≤ endY s ∧ endY s ≤ 32767 := sext16_bounds _
    have hlen := linePlots_length_le (pointX s) (pointY s) (endX s) (endY s)
    exact ⟨t, _, h, d, by omega⟩
  · obtain ⟨t, h, d⟩ := execRect_draws color s
    have hlen := rectPlots_length_le (pointX s) (pointY s) (sizeW s) (sizeH s)
    exact ⟨t, _, h, d, by omega⟩
  · obtain ⟨t, h, d⟩ := execFillrect_draws color s
    have hlen : sizeW s * sizeH s ≤ 65535 * 65535 := Nat.mul_le_mul hw hh
    exact ⟨t, _, h, d, by rw [fillPlots_length]; omega⟩
  · obtain ⟨t, h, d⟩ := execCircle_draws color s
    have hr : radius s ≤ 65535 := zext16_le _
    have hlen := circleCount_le (radius s)
    exact ⟨t, _, h, d, by rw [circlePlots_length]; omega⟩

/-- `WRCNT <= PLOTCNT` after a drawing command, since `PLOTCNT` does not wrap (R31). -/
theorem DrawsExactly.wrcnt_le_plotcnt {c : Color} {ps : List Point} {s t : State}
    (h : DrawsExactly c ps s t) (hlen : ps.length < 2 ^ 32) : t.wrcnt ≤ t.plotcnt := by
  have hle : countInRange s.cfg ps ≤ ps.length := countInRange_le ..
  rw [h.wrcnt, h.plotcnt, BitVec.le_def, BitVec.toNat_ofNat, BitVec.toNat_ofNat,
    Nat.mod_eq_of_lt (hle.trans_lt hlen), Nat.mod_eq_of_lt hlen]
  exact hle

/-- Everything a command but `FLUSH` can do: end at once, clear, read a cell into `PIXDATA`, or draw
(R112 to R117, R131, R140, R145, R151). -/
theorem exec_of_ne_flush {i : Instr} (hi : i ≠ .flush) (s : State) :
    ∃ t, exec i s = .next t ∧
      (t = finish s ∨ t = finish (clearCells s) ∨
        t = finish (s.setPixdata (getpixWord (pointX s) (pointY s) s)) ∨
        ∃ c ps, DrawsExactly c ps s t ∧ ps.length < 2 ^ 32) := by
  by_cases hd : ∃ color, i = .setpix color ∨ i = .line color ∨ i = .rect color ∨
      i = .fillrect color ∨ i = .circle color
  · obtain ⟨color, hd⟩ := hd
    obtain ⟨t, ps, h, d, hlen⟩ := exec_draws_lt hd s
    exact ⟨t, h, .inr (.inr (.inr ⟨_, ps, d, hlen⟩))⟩
  · cases i with
    | nop | reserved9 | reservedAB _ | reservedCF _ => exact ⟨_, rfl, .inl rfl⟩
    | clear => exact ⟨_, rfl, .inr (.inl rfl)⟩
    | getpix => exact ⟨_, rfl, .inr (.inr (.inl rfl))⟩
    | flush => exact absurd rfl hi
    | setpix c | line c | rect c | fillrect c | circle c => exact absurd ⟨c, by simp⟩ hd

/-! ### Only illegal parameters are refused -/

/-- Every command answers a next state, in every state. -/
theorem exec_next (i : Instr) (s : State) : ∃ t, exec i s = .next t := by
  by_cases hi : i = .flush
  · subst hi
    rcases execFlush_cases s with ⟨-, h⟩ | ⟨-, -, h⟩ | ⟨-, -, h⟩ <;> exact ⟨_, h⟩
  · obtain ⟨t, h, -⟩ := exec_of_ne_flush hi s
    exact ⟨t, h⟩

/-- The engine's turn answers a next state, in every state. -/
theorem engineTurn_next (s : State) : ∃ t, engineTurn s = .next t := by
  unfold engineTurn
  cases s.eng with
  | idle | clearing => exact ⟨_, rfl⟩
  | running => exact exec_next ..

/-- The host's turn answers a next state or faults. -/
theorem hostTurn_ne_refused (s : State) (r : Refusal) : hostTurn s ≠ .refused r := by
  rcases hostTurn_cases s with ⟨_, -, -, h⟩ | ⟨_, -, -, h⟩ | ⟨-, -, h⟩ | ⟨_, -, -, h⟩ |
    ⟨_, _, -, -, -, -, h⟩ | ⟨_, _, -, -, -, -, h⟩ | ⟨_, _, -, -, -, h⟩ <;> simp [h]

/-- No agent's turn is refused (R180). -/
theorem agentTurn_ne_refused (a : Agent) (s : State) (r : Refusal) :
    agentTurn a s ≠ .refused r := by
  cases a with
  | host => exact hostTurn_ne_refused s r
  | engine =>
    obtain ⟨t, h⟩ := engineTurn_next s
    simp [agentTurn, h]
  | sink | reset => simp [agentTurn]

/-- A step is refused for its parameters exactly when they are illegal (log 11). -/
theorem step_refused_iff (s : State) : step s = .refused .illegalConfig ↔ s.cfg.legal = false := by
  cases hl : s.cfg.legal with
  | false => simp [step, hl]
  | true =>
    rw [step_of_legal hl]
    simp [agentTurn_ne_refused]

/-- Settles O52: the range of R8 spelled out, and no agent's turn is refused. -/
theorem illegalParametersAreRefused : Obligations.IllegalParametersAreRefused := by
  intro s
  rw [step_refused_iff, ← Bool.not_eq_true, legal_iff]
  omega

/-! ### Changes the invariant does not see -/

namespace MachineInv

variable {s t : State}

/-- The invariant does not speak of the host's program, its reads and the turns. -/
theorem host_side (h : MachineInv s) (p : List HostOp) (rs : List Word) (ts : List Agent) :
    MachineInv { s with program := p, reads := rs, turns := ts } := { h with }

/-- The outstanding access may be any that can be held, in the window (R52, R60). -/
theorem set_pending (h : MachineInv s) {o : Option Access}
    (ho : ∀ a, o = some a → inWindow s.cfg a.addr = true ∧ neverHeld s.cfg a = false) :
    MachineInv { s with pending := o } := { h with pendingHeld := ho }

/-- While `BUSY` is 0 the engine is idle (R25). -/
theorem eng_idle (h : MachineInv s) (hb : s.busy = false) : s.eng = .idle := by
  have := h.busyIff
  simpa [hb] using this

/-- Nothing is offered to the sink unless a `FLUSH` runs (R163). -/
theorem snk_not_valid (h : MachineInv s) (hf : s.eng = .running → s.latch.op ≠ 0x8#4) :
    s.snk.valid = false := by
  by_contra hv
  obtain ⟨hr, hop, -, -⟩ := h.sinkDriven (by simpa using hv)
  exact hf hr hop

/-- An idle engine's operand registers are free to change (R38). -/
theorem set_args (h : MachineInv s) (hi : s.eng = .idle) (a0 a1 : Word) :
    MachineInv { s with arg0 := a0, arg1 := a1 } :=
  { h with latched := fun hr => by simp [hi] at hr }

/-- A command accepted by an idle engine (R38, R56): the operands are latched, the cursor stands at
the first cell, nothing is offered yet. -/
theorem start_command (h : MachineInv s) (hi : s.eng = .idle) (w : Word) :
    MachineInv (startCommand w s) :=
  { h with
    busyIff := by simp
    latched := fun _ => ⟨rfl, rfl⟩
    sinkDriven := fun hv => by
      have hq : s.snk.valid = false := h.snk_not_valid fun hr => by simp [hi] at hr
      simp [hq] at hv
    flushCursor := fun _ _ => Nat.zero_le _ }

/-- A command or the reset clear ends with nothing offered: what it leaves in `fb`, `PIXDATA` and the
counters must be legal, and the working variables may be anything. -/
theorem ended (h : MachineInv s) (hv : s.snk.valid = false)
    (hf : t = { s with
      fb := t.fb, pixdata := t.pixdata, plotcnt := t.plotcnt, wrcnt := t.wrcnt, work := t.work
      eng := .idle, busy := false })
    (hwf : t.fb.wf = true) (hgrid : ∀ p ∈ t.fb, p.1 < s.cfg.cells) (hcnt : t.wrcnt ≤ t.plotcnt)
    (hpix : t.pixdata = pixdataSentinel ∨ ∃ c : Color, t.pixdata = pixdataOfCell c) :
    MachineInv t := by
  rw [hf]
  exact
    { h with
      fbWf := hwf
      fbInGrid := hgrid
      busyIff := by simp
      counters := hcnt
      pixdataLegal := hpix
      latched := fun hr => by cases hr
      sinkDriven := fun hs => by simp [hv] at hs
      flushCursor := fun hr => by cases hr }

/-- A command that only ends (R112, R117). -/
theorem finished (h : MachineInv s) (hv : s.snk.valid = false) : MachineInv (finish s) :=
  h.ended hv rfl h.fbWf h.fbInGrid h.counters h.pixdataLegal

/-- `CLEAR` and the reset clear (R113, R212). -/
theorem cleared (h : MachineInv s) (hv : s.snk.valid = false) :
    MachineInv (finish (clearCells s)) := by
  have hf : finish (clearCells s) = { s with
      fb := (clearCells s).fb, work := { s.work with cursor := s.cfg.cells }
      eng := .idle, busy := false } := by
    rw [clearCells_frame]; rfl
  rw [hf]
  exact h.ended hv rfl (clearCells_wf s h.fbWf) (clearCells_inGrid s h.fbInGrid) h.counters
    h.pixdataLegal

/-- `GETPIX` leaves a colour or the sentinel in `PIXDATA` (R115). -/
theorem pixel_read (h : MachineInv s) (hv : s.snk.valid = false) (x y : Int) :
    MachineInv (finish (s.setPixdata (getpixWord x y s))) := by
  refine h.ended hv rfl h.fbWf h.fbInGrid h.counters ?_
  simp only [finish_pixdata, setPixdata_pixdata, getpixWord]
  split
  · exact .inr ⟨_, rfl⟩
  · exact .inl rfl

/-- A drawing command (R111, R116). -/
theorem drawn (h : MachineInv s) (hv : s.snk.valid = false) {c : Color} {ps : List Point}
    (d : DrawsExactly c ps s t) (hlen : ps.length < 2 ^ 32) : MachineInv t := by
  have hpix : t.pixdata = s.pixdata := by rw [d.frame]
  refine h.ended hv ?_ (d.fb_wf h.fbWf) (d.fb_inGrid h.fbInGrid) (d.wrcnt_le_plotcnt hlen) ?_
  · rw [hpix]
    exact d.frame
  · rw [hpix]
    exact h.pixdataLegal

/-! ### The agents' turns -/

/-- An access that is not held completes (R51): a write only while the engine is idle (R60). -/
theorem completed (h : MachineInv s) {a : Access} (hh : held s a = false) :
    MachineInv (complete a s) := by
  cases a with
  | read addr width => exact h.host_side _ _ _
  | write addr width w =>
    have hi : s.eng = .idle := h.eng_idle (by rwa [held_write] at hh)
    rcases complete_cases (.write addr width w) s with ⟨w, e⟩ | ⟨w, e⟩ | ⟨w, e⟩ | ⟨w, e⟩ | e
    · exact e ▸ h.host_side _ _ _
    · exact e ▸ h.start_command hi w
    · exact e ▸ h.set_args hi w s.arg1
    · exact e ▸ h.set_args hi s.arg0 w
    · rw [e]; exact h

theorem hostTurn_next (h : MachineInv s) (ht : hostTurn s = .next t) : MachineInv t := by
  rcases hostTurn_cases s with ⟨a, -, -, e⟩ | ⟨a, -, hb, e⟩ | ⟨-, -, e⟩ | ⟨rest, -, -, e⟩ |
    ⟨a, rest, -, -, hw, hh, e⟩ | ⟨a, rest, -, -, -, hh, e⟩ | ⟨a, rest, -, -, -, e⟩ <;>
    cases e.symm.trans ht
  · exact h
  · exact (h.set_pending fun _ ho => by cases ho).completed (held_of_idle hb a)
  · exact h
  · exact h.host_side _ _ _
  · refine (h.host_side rest s.reads s.turns).set_pending fun b hb => ?_
    cases hb
    have : neverHeld s.cfg a = false := by
      simp only [held, Bool.and_eq_true, Bool.not_eq_true'] at hh
      exact hh.2
    exact ⟨hw, this⟩
  · exact (h.host_side rest s.reads s.turns).completed hh

/-- A command but `FLUSH`: nothing is offered while it runs (R163). -/
theorem exec_next_of_ne_flush (h : MachineInv s) (hv : s.snk.valid = false) {i : Instr}
    (hi : i ≠ .flush) (ht : exec i s = .next t) : MachineInv t := by
  obtain ⟨u, hu, hcases⟩ := exec_of_ne_flush hi s
  cases hu.symm.trans ht
  rcases hcases with rfl | rfl | rfl | ⟨c, ps, d, hlen⟩
  · exact h.finished hv
  · exact h.cleared hv
  · exact h.pixel_read hv _ _
  · exact h.drawn hv d hlen

/-- A running `FLUSH` waits, offers the cell under its cursor, or ends (R160, R162). -/
theorem execFlush_next (h : MachineInv s) (hr : s.eng = .running) (hop : s.latch.op = 0x8#4)
    (ht : execFlush s = .next t) : MachineInv t := by
  rcases execFlush_cases s with ⟨-, e⟩ | ⟨-, hc, e⟩ | ⟨hv, -, e⟩ <;> cases e.symm.trans ht
  · exact h
  · exact { h with sinkDriven := fun _ => ⟨hr, hop, hc, rfl⟩ }
  · exact h.finished hv

theorem engineTurn_next (h : MachineInv s) (ht : engineTurn s = .next t) : MachineInv t := by
  cases he : s.eng with
  | idle =>
    simp only [engineTurn, he, Host.Outcome.next.injEq] at ht
    exact ht ▸ h
  | clearing =>
    simp only [engineTurn, he, Host.Outcome.next.injEq] at ht
    exact ht ▸ h.cleared (h.snk_not_valid fun hr => by simp [he] at hr)
  | running =>
    by_cases hop : s.latch.op = 0x8#4
    · exact h.execFlush_next he hop (by rwa [engineTurn_of_flush he hop] at ht)
    · simp only [engineTurn, he] at ht
      exact h.exec_next_of_ne_flush (h.snk_not_valid fun _ => hop)
        (fun hd => hop ((decode_latch_flush _).1 hd)) ht

/-- The sink accepts the cell under the cursor, which is in the grid, and the cursor moves on (R162). -/
theorem sink_accepted (h : MachineInv s) : MachineInv (sinkAccept s) := by
  cases hv : s.snk.valid with
  | false => simpa [sinkAccept, hv] using h
  | true =>
    obtain ⟨-, -, hc, hp⟩ := h.sinkDriven hv
    rw [sinkAccept, if_pos hv]
    exact
      { h with
        sinkDriven := fun hf => by cases hf
        flushCursor := fun _ _ => hc
        traceInGrid := fun x hx => by
          rcases List.mem_append.1 hx with hx | hx
          · exact h.traceInGrid x hx
          · rw [List.mem_singleton.1 hx, hp]
            exact transferAt_inGrid h.legal s.fb hc }

/-- `RST`: the registers and the port at their reset values, `fb` unspecified but a grid of cells, the
trace kept, the held access kept or dropped (R210 to R213). -/
theorem reset_applied (h : MachineInv s) : MachineInv (applyReset s) where
  legal := h.legal
  fbWf := unspecifiedFb_wf ..
  fbInGrid := unspecifiedFb_inGrid s.cfg s.freeDraws
  busyIff := by simp
  counters := by simp
  pixdataLegal := .inr ⟨0, rfl⟩
  latched hr := by cases hr
  sinkDriven hv := by cases hv
  flushCursor hr := by cases hr
  traceInGrid := h.traceInGrid
  pendingHeld a ha := by
    rw [applyReset_pending] at ha
    split at ha
    · exact h.pendingHeld a ha
    · cases ha

theorem agentTurn_next (h : MachineInv s) {a : Agent} (ht : agentTurn a s = .next t) :
    MachineInv t := by
  cases a with
  | host => exact h.hostTurn_next ht
  | engine => exact h.engineTurn_next ht
  | sink => cases ht; exact h.sink_accepted
  | reset => cases ht; exact h.reset_applied

end MachineInv

/-- Settles O57: spending the turn is not seen by the invariant, and each agent's turn keeps it. -/
theorem stepKeepsInvariant : Obligations.StepKeepsInvariant := by
  intro s t h hs
  obtain ⟨-, ht⟩ := step_next hs
  exact (h.host_side s.program s.reads s.turns.tail).agentTurn_next ht

end Sys2Proof.Machine

/-! ## Proofs: the state, the latch and the register window

The statements of the family `10_state`. What a command does with the working variables (O36) and with
`ARG0` and `ARG1` (O19) is a lemma over all commands; what an access at each offset of the window
selects is said once, in `selected_window`. -/

namespace Sys2Proof.Machine

/-! ### The working variables of an idle engine -/

namespace SameVisible

variable {s t : State}

theorem refl (s : State) : SameVisible s s := ⟨rfl, fun _ => rfl⟩

/-- Other working variables are invisible where the cell cursor is kept or nothing runs (R37). -/
theorem setWork (w : Work) (h : s.eng = .running → w.cursor = s.work.cursor) :
    SameVisible s (s.setWork w) := ⟨rfl, h⟩

/-- Alike states are one state with two values of the working variables. -/
theorem exists_setWork (h : SameVisible s t) :
    ∃ w : Work, t = s.setWork w ∧ (s.eng = .running → w.cursor = s.work.cursor) :=
  ⟨t.work, h.fields, h.cursor⟩

end SameVisible

/-- A drawing command makes the same plots whatever the working variables hold: each loop begins by
setting its own (R130, R140, R145, R150). -/
theorem exec_draws_setWork {i : Instr} {color : Nat}
    (hi : i = .setpix color ∨ i = .line color ∨ i = .rect color ∨ i = .fillrect color ∨
      i = .circle color) (s : State) :
    ∃ ps, ∀ w : Work, ∃ t, exec i (s.setWork w) = .next t ∧
      DrawsExactly (maskColor color) ps (s.setWork w) t := by
  rcases hi with rfl | rfl | rfl | rfl | rfl
  · exact ⟨[{ x := pointX s, y := pointY s }], fun w => execSetpix_draws color (s.setWork w)⟩
  · exact ⟨linePlots (pointX s) (pointY s) (endX s) (endY s),
      fun w => execLine_draws color (s.setWork w)⟩
  · exact ⟨rectPlots (pointX s) (pointY s) (sizeW s) (sizeH s),
      fun w => execRect_draws color (s.setWork w)⟩
  · exact ⟨fillPlots (pointX s) (pointY s) (sizeW s) (sizeH s),
      fun w => execFillrect_draws color (s.setWork w)⟩
  · exact ⟨circlePlots (pointX s) (pointY s) (radius s),
      fun w => execCircle_draws color (s.setWork w)⟩

/-- The same plots leave the same state but for the working variables. -/
theorem DrawsExactly.setWork_eq {c : Color} {ps : List Point} {s t u : State} {w : Work}
    (h : DrawsExactly c ps s t) (h' : DrawsExactly c ps (s.setWork w) u) :
    u = t.setWork u.work := by
  obtain ⟨v, rfl⟩ := h
  obtain ⟨v', rfl⟩ := h'
  change finish ((plotAll c ps ((zeroCounters s).setWork w)).setWork v') = _
  rw [plotAll_setWork]
  rfl

/-- `CLEAR` and the reset clear start their own cursor (R37, R113). -/
theorem resetClear_setWork (w : Work) (s : State) :
    resetClear (s.setWork w) = (resetClear s).setWork (resetClear (s.setWork w)).work := by
  rw [resetClear, clearCells_frame, clearCells_setWork, resetClear, clearCells_frame s]
  rfl

/-- What a command but `FLUSH` leaves does not depend on the working variables it found, apart from
what it leaves in them (R37). -/
theorem exec_setWork {i : Instr} (hi : i ≠ .flush) (w : Work) {s t : State}
    (h : exec i s = .next t) : ∃ v : Work, exec i (s.setWork w) = .next (t.setWork v) := by
  by_cases hd : ∃ color, i = .setpix color ∨ i = .line color ∨ i = .rect color ∨
      i = .fillrect color ∨ i = .circle color
  · obtain ⟨color, hd⟩ := hd
    obtain ⟨ps, hps⟩ := exec_draws_setWork hd s
    obtain ⟨t', ht, d⟩ := hps s.work
    obtain ⟨u, hu, d'⟩ := hps w
    cases h.symm.trans ht
    exact ⟨u.work, hu.trans (congrArg _ (d.setWork_eq d'))⟩
  · cases i with
    | nop | reserved9 | reservedAB _ | reservedCF _ | getpix => cases h; exact ⟨w, rfl⟩
    | clear => cases h; exact ⟨_, congrArg Host.Outcome.next (resetClear_setWork w s)⟩
    | flush => exact absurd rfl hi
    | setpix c | line c | rect c | fillrect c | circle c => exact absurd ⟨c, by simp⟩ hd

/-- Everything a command but `FLUSH` can change; it ends (R37, R112 to R117, R187). -/
theorem exec_frame_of_ne_flush {i : Instr} (hi : i ≠ .flush) (s : State) :
    ∃ t, exec i s = .next t ∧ t = { s with
      fb := t.fb, pixdata := t.pixdata, plotcnt := t.plotcnt, wrcnt := t.wrcnt, work := t.work
      eng := .idle, busy := false } := by
  obtain ⟨t, h, hc⟩ := exec_of_ne_flush hi s
  refine ⟨t, h, ?_⟩
  rcases hc with rfl | rfl | rfl | ⟨c, ps, d, -⟩
  · rfl
  · rw [clearCells_frame]; rfl
  · rfl
  · rw [d.frame]

/-! #### The agents' turns on alike states -/

namespace SameVisible

variable {s t : State}

/-- A completed access reads no working variable; the one write that sets some, of `CMD`, sets the
cell cursor of both states to 0 (R38, log 8). -/
theorem completed (h : SameVisible s t) (a : Access) :
    SameVisible (complete a s) (complete a t) := by
  obtain ⟨w, rfl, hw⟩ := h.exists_setWork
  cases a with
  | read addr width => exact ⟨rfl, hw⟩
  | write addr width v =>
    simp only [complete, writeData, setWork_cfg]
    split
    · rename_i r _
      cases r with
      | cmd => exact ⟨rfl, fun _ => rfl⟩
      | id | status | arg0 | arg1 | pixdata | plotcnt | wrcnt => exact ⟨rfl, hw⟩
    · exact ⟨rfl, hw⟩

/-- The host's turn looks at its own lines, at `BUSY` and at the registers: a held access waits or
completes, and a line is a poll, is held, completes, or faults in both states (R60, R92). -/
theorem hostTurn_related (h : SameVisible s t) :
    OutcomesRelated SameVisible (hostTurn s) (hostTurn t) := by
  obtain ⟨w, rfl, hw⟩ := h.exists_setWork
  have hheld : ∀ a, held (s.setWork w) a = held s a := fun _ => rfl
  simp only [hostTurn, setWork_pending, setWork_busy, setWork_program, setWork_cfg, hheld]
  split
  · by_cases hb : s.busy = true
    · simp only [hb, ↓reduceIte]
      exact h
    · simp only [hb]
      exact completed ⟨rfl, hw⟩ _
  · split
    · exact h
    · exact ⟨rfl, hw⟩
    · split
      · split
        · exact ⟨rfl, hw⟩
        · exact completed ⟨rfl, hw⟩ _
      · rfl

/-- A running `FLUSH` goes by the cell cursor, which is the same in both states (R160, R162). -/
theorem execFlush_related (h : SameVisible s t) (he : s.eng = .running) :
    OutcomesRelated SameVisible (execFlush s) (execFlush t) := by
  obtain ⟨w, rfl, hw⟩ := h.exists_setWork
  have hcur : w.cursor = s.work.cursor := hw he
  simp only [execFlush, setWork_snk, setWork_work, setWork_cfg, hcur]
  split
  · exact h
  · split
    · refine ⟨?_, hw⟩
      simp only [offerTransfer, setWork_work, hcur]
      rfl
    · exact ⟨rfl, fun hr => by cases hr⟩

/-- The engine's turn: nothing, the clear, a step of `FLUSH`, or a whole command (R37, R187). -/
theorem engineTurn_related (h : SameVisible s t) :
    OutcomesRelated SameVisible (engineTurn s) (engineTurn t) := by
  obtain ⟨w, rfl, -⟩ := h.exists_setWork
  simp only [engineTurn, setWork_eng, setWork_latch]
  cases he : s.eng with
  | idle => exact h
  | clearing => exact ⟨resetClear_setWork w s, fun hr => by cases hr⟩
  | running =>
    by_cases hf : decode s.latch.word = .flush
    · rw [hf]
      exact h.execFlush_related he
    · obtain ⟨u, hu, hframe⟩ := exec_frame_of_ne_flush hf s
      obtain ⟨v, hv⟩ := exec_setWork hf w hu
      rw [hu, hv]
      exact SameVisible.setWork v fun hr => by rw [hframe] at hr; cases hr

/-- An acceptance moves both cursors on by one (R162). -/
theorem sink_accepted (h : SameVisible s t) : SameVisible (sinkAccept s) (sinkAccept t) := by
  obtain ⟨w, rfl, hw⟩ := h.exists_setWork
  simp only [sinkAccept, setWork_snk]
  by_cases hv : s.snk.valid = true
  · simp only [hv, ↓reduceIte]
    exact ⟨rfl, fun hr => congrArg (· + 1) (hw hr)⟩
  · simp only [hv]
    exact h

theorem agentTurn_related (h : SameVisible s t) (a : Agent) :
    OutcomesRelated SameVisible (agentTurn a s) (agentTurn a t) := by
  cases a with
  | host => exact h.hostTurn_related
  | engine => exact h.engineTurn_related
  | sink => exact h.sink_accepted
  | reset =>
    obtain ⟨w, rfl, -⟩ := h.exists_setWork
    exact refl (applyReset s)

end SameVisible

/-- Settles O36: the same agent moves in both states, and each agent's turn keeps them alike. -/
theorem workingVariablesUnobservable : Obligations.WorkingVariablesUnobservable := by
  intro s t h
  obtain ⟨w, rfl, hw⟩ := h.exists_setWork
  cases hl : s.cfg.legal with
  | false => simp [step, hl, OutcomesRelated]
  | true =>
    have hspent : SameVisible (s.setTurns s.turns.tail) ((s.setWork w).setTurns s.turns.tail) :=
      ⟨rfl, hw⟩
    rw [step_of_legal hl, step_of_legal (s := s.setWork w) hl]
    exact hspent.agentTurn_related (nextTurn s)

/-! ### The latched command -/

/-- The colour acts through its mask only (R82). -/
theorem exec_decodeOp_congr (op : BitVec 4) {c d : BitVec 8}
    (h : maskColor c.toNat = maskColor d.toNat) (s : State) :
    exec (decodeOp op c) s = exec (decodeOp op d) s := by
  unfold decodeOp
  split <;> simp only [exec, execSetpix, execLine, execRect, execFillrect, execCircle, h]

/-- A `CMD` word acts through `CMD[3:0]` and `CMD[9:8]` only (R82, R87). -/
theorem exec_decode_congr {v w : Word} (hop : cmdOp v = cmdOp w)
    (hc : v.extractLsb' 8 2 = w.extractLsb' 8 2) (s : State) :
    exec (decode v) s = exec (decode w) s := by
  have hmask : maskColor (cmdColor v).toNat = maskColor (cmdColor w).toNat := by
    rw [maskColor_cmdColor, maskColor_cmdColor, hc]
  rw [decode, decode, hop]
  exact exec_decodeOp_congr _ hmask s

/-- Settles O9: the latch keeps the two fields that act. -/
theorem latchedWordActsAsWritten : Obligations.LatchedWordActsAsWritten := by
  intro w s t
  obtain ⟨hop, hc⟩ := cmdFields_latchWord w s
  exact exec_decode_congr hop hc t

/-- Settles O8: the next agent is the engine, and it runs its latch. -/
theorem stepRunsLatchedCommand : Obligations.StepRunsLatchedCommand := by
  intro s hl hn he
  rw [step_of_legal hl, hn]
  simp [agentTurn, engineTurn, he]

/-- A table word that decodes at all decodes as the `CMD` word it is (R80). -/
theorem decodeTableWord_eq_some {nbits w : Nat} {i : Instr} (h : decodeTableWord nbits w = some i) :
    decode (BitVec.ofNat 32 (w % 2 ^ nbits)) = i := by
  by_cases hn : nbits ≤ 32
  · rw [decodeTableWord_eq w hn] at h
    exact Option.some.inj h
  · simp [decodeTableWord, hn] at h

/-- A busy engine with nothing offered is next if a turn is put in front for it, or if no turn is
left (log 6). -/
theorem nextTurn_engineFirst (s : State) (hb : s.busy = true) (hv : s.snk.valid = false) :
    nextTurn (s.setTurns (if s.turns = [] then [] else .engine :: s.turns)) = .engine := by
  by_cases ht : s.turns = [] <;> simp [nextTurn, ht, hb, hv]

/-- A placed command: the engine runs it, next, with the word's latch, on the same grid (log 16). -/
theorem loadCommand_runs (w : Word) (s : State) :
    (loadCommand w s).cfg = s.cfg ∧ (loadCommand w s).eng = .running ∧
      nextTurn (loadCommand w s) = .engine ∧ ∃ u, (loadCommand w s).latch = (startCommand w u).latch := by
  have hclear : (resetClear s).cfg = s.cfg := by rw [resetClear, clearCells_frame]; rfl
  refine ⟨?_, rfl, ?_, _, rfl⟩
  · by_cases he : s.eng = .clearing <;> simp [loadCommand, he, hclear]
  · exact nextTurn_engineFirst _ rfl rfl

/-- Settles O10: the placed word's latch decodes as the word, and the engine is next. -/
theorem fetchWordRunsTableInstr : Obligations.FetchWordRunsTableInstr := by
  intro s nbits w i hl hi
  obtain ⟨hcfg, he, hn, u, hlatch⟩ := loadCommand_runs (BitVec.ofNat 32 (w % 2 ^ nbits)) s
  rw [State.withFetchWord, stepRunsLatchedCommand _ (by rwa [hcfg]) hn he, hlatch,
    latchedWordActsAsWritten, decodeTableWord_eq_some hi]

/-! ### `ARG0` and `ARG1` -/

/-- `ARG0` and `ARG1` replaced (R27, R28). -/
def State.setArgs (a b : Word) (s : State) : State := { s with arg0 := a, arg1 := b }

section
variable (a b : Word)

theorem lineLoop_setArgs (x1 y1 : Int) (c : Color) (n : Nat) (s : State) :
    lineLoop x1 y1 c n (s.setArgs a b) = (lineLoop x1 y1 c n s).setArgs a b := by
  induction n generalizing s with
  | zero => rfl
  | succ n ih =>
    rw [lineLoop, lineLoop, apply_ite (State.setArgs a b), ← ih]
    rfl

theorem drawLine_setArgs (x0 y0 x1 y1 : Int) (c : Color) (s : State) :
    drawLine x0 y0 x1 y1 c (s.setArgs a b) = (drawLine x0 y0 x1 y1 c s).setArgs a b :=
  lineLoop_setArgs a b x1 y1 c _ (s.setLine (lineStart x0 y0 x1 y1))

theorem rectLoop_setArgs (x y xr yb : Int) (c : Color) (n : Nat) (s : State) :
    rectLoop x y xr yb c n (s.setArgs a b) = (rectLoop x y xr yb c n s).setArgs a b := by
  induction n generalizing s with
  | zero => rfl
  | succ n ih =>
    rw [rectLoop, rectLoop, ← ih, drawLine_setArgs]
    rfl

theorem drawRect_setArgs (x y : Int) (w h : Nat) (c : Color) (s : State) :
    drawRect x y w h c (s.setArgs a b) = (drawRect x y w h c s).setArgs a b := by
  unfold drawRect
  split
  · rfl
  · split
    · exact drawLine_setArgs ..
    · exact rectLoop_setArgs a b x y (x + w - 1) (y + h - 1) c 4 (s.setEdge 0)

theorem fillCols_setArgs (c : Color) (n : Nat) (s : State) :
    fillCols c n (s.setArgs a b) = (fillCols c n s).setArgs a b := by
  induction n generalizing s with
  | zero => rfl
  | succ n ih =>
    rw [fillCols, fillCols, ← ih]
    rfl

theorem fillRows_setArgs (x : Int) (w : Nat) (c : Color) (n : Nat) (s : State) :
    fillRows x w c n (s.setArgs a b) = (fillRows x w c n s).setArgs a b := by
  induction n generalizing s with
  | zero => rfl
  | succ n ih =>
    have hcols := fillCols_setArgs a b c w (s.setFill { s.work.fill with col := x })
    rw [fillRows, fillRows, ← ih]
    exact congrArg (fun u => fillRows x w c n
      (u.setFill { col := x + w, row := s.work.fill.row + 1 })) hcols

theorem drawFill_setArgs (x y : Int) (w h : Nat) (c : Color) (s : State) :
    drawFill x y w h c (s.setArgs a b) = (drawFill x y w h c s).setArgs a b :=
  fillRows_setArgs a b x w c h (s.setFill { row := y, col := x })

theorem circlePoints_setArgs (x0 y0 : Int) (c : Color) (n : Nat) (s : State) :
    circlePoints x0 y0 c n (s.setArgs a b) = (circlePoints x0 y0 c n s).setArgs a b := by
  induction n generalizing s with
  | zero => rfl
  | succ n ih =>
    rw [circlePoints, circlePoints, ← ih]
    rfl

theorem circleLoop_setArgs (x0 y0 : Int) (c : Color) (n : Nat) (s : State) :
    circleLoop x0 y0 c n (s.setArgs a b) = (circleLoop x0 y0 c n s).setArgs a b := by
  induction n generalizing s with
  | zero => rfl
  | succ n ih =>
    have hpoints := circlePoints_setArgs a b x0 y0 c 8 (s.setCircle { s.work.circle with point := 0 })
    rw [circleLoop, circleLoop, apply_ite (State.setArgs a b), ← ih]
    exact congrArg (fun u => if s.work.circle.x ≥ s.work.circle.y then
      circleLoop x0 y0 c n (u.setCircle (circleStep s.work.circle)) else s.setArgs a b) hpoints

theorem drawCircle_setArgs (x0 y0 : Int) (r : Nat) (c : Color) (s : State) :
    drawCircle x0 y0 r c (s.setArgs a b) = (drawCircle x0 y0 r c s).setArgs a b :=
  circleLoop_setArgs a b x0 y0 c (r + 2) (s.setCircle (circleStart r))

theorem clearLoop_setArgs (n : Nat) (s : State) :
    clearLoop n (s.setArgs a b) = (clearLoop n s).setArgs a b := by
  induction n generalizing s with
  | zero => rfl
  | succ n ih =>
    rw [clearLoop, clearLoop, ← ih]
    rfl

/-- Ending a command leaves `ARG0` and `ARG1` (R25). -/
theorem next_finish_setArgs {s t : State} (h : s = t.setArgs a b) :
    (.next (finish s) : Host.Outcome State Fault Refusal) = .next ((finish t).setArgs a b) := by
  rw [h]
  rfl

/-- No command reads or writes `ARG0` or `ARG1` (R38, R63). -/
theorem exec_setArgs {i : Instr} {s t : State} (h : exec i s = .next t) :
    exec i (s.setArgs a b) = .next (t.setArgs a b) := by
  cases i with
  | flush =>
    rcases execFlush_cases s with ⟨hv, e⟩ | ⟨hv, hc, e⟩ | ⟨hv, hc, e⟩ <;> cases e.symm.trans h
    · exact if_pos hv
    · exact (if_neg (ne_true_of_eq_false hv)).trans (if_pos hc)
    · exact (if_neg (ne_true_of_eq_false hv)).trans (if_neg (Nat.not_lt_of_le hc))
  | nop | reserved9 | reservedAB _ | reservedCF _ | getpix | setpix _ => cases h; rfl
  | clear =>
    cases h
    exact next_finish_setArgs a b (clearLoop_setArgs a b s.cfg.cells (s.setCursor 0))
  | line color =>
    cases h
    exact next_finish_setArgs a b (drawLine_setArgs a b _ _ _ _ _ (zeroCounters s))
  | rect color =>
    cases h
    exact next_finish_setArgs a b (drawRect_setArgs a b _ _ _ _ _ (zeroCounters s))
  | fillrect color =>
    cases h
    exact next_finish_setArgs a b (drawFill_setArgs a b _ _ _ _ _ (zeroCounters s))
  | circle color =>
    cases h
    exact next_finish_setArgs a b (drawCircle_setArgs a b _ _ _ _ (zeroCounters s))

end

/-- Settles O19: a command run with the values `ARG0` and `ARG1` already hold leaves those. -/
theorem commandsReadTheLatchOnly : Obligations.CommandsReadTheLatchOnly := by
  intro i s t a b h
  have hsame : t = t.setArgs s.arg0 s.arg1 :=
    Host.Outcome.next.inj (h.symm.trans (exec_setArgs s.arg0 s.arg1 h))
  exact ⟨(congrArg State.arg0 hsame :), (congrArg State.arg1 hsame :), exec_setArgs a b h⟩

/-! ### Completion and the counters -/

/-- Settles O31: a command but `FLUSH` ends, and its frame holds the rest. -/
theorem commandsCompleteInOneStep : Obligations.CommandsCompleteInOneStep := by
  intro i s hi
  obtain ⟨t, ht, hframe⟩ := exec_frame_of_ne_flush hi s
  refine ⟨t, ht, ?_⟩
  rw [hframe]
  exact ⟨rfl, rfl, rfl, rfl, rfl, rfl, rfl, rfl⟩

/-- `CLEAR` leaves both counters (R113). -/
theorem execClear_counters {s t : State} (h : execClear s = .next t) :
    t.plotcnt = s.plotcnt ∧ t.wrcnt = s.wrcnt := by
  cases (execClear_frame s).symm.trans h
  exact ⟨rfl, rfl⟩

/-- `FLUSH` leaves both counters, at each of its steps (R160). -/
theorem execFlush_counters {s t : State} (h : execFlush s = .next t) :
    t.plotcnt = s.plotcnt ∧ t.wrcnt = s.wrcnt := by
  rcases execFlush_cases s with ⟨-, e⟩ | ⟨-, -, e⟩ | ⟨-, -, e⟩ <;> cases e.symm.trans h <;>
    exact ⟨rfl, rfl⟩

/-- Settles O32: a drawing command begins by zeroing the counters, the others leave them. -/
theorem countersDescribeLastDrawing : Obligations.CountersDescribeLastDrawing := by
  refine ⟨fun s t h => ?_, fun i s p q h => ?_⟩
  · rcases h with h | h | h | h | h | ⟨op, h | h⟩
    · cases h; exact ⟨rfl, rfl⟩
    · exact execClear_counters h
    · cases h; exact ⟨rfl, rfl⟩
    · exact execFlush_counters h
    · cases h; exact ⟨rfl, rfl⟩
    · cases h; exact ⟨rfl, rfl⟩
    · cases h; exact ⟨rfl, rfl⟩
  · obtain ⟨color, rfl | rfl | rfl | rfl | rfl⟩ := h <;> rfl

/-- Settles O33: a drawing command counts at most as many plots in range as it makes, and wraps
neither counter. -/
theorem wrcntNeverExceedsPlotcnt : Obligations.WrcntNeverExceedsPlotcnt := by
  intro i s t color hi h
  obtain ⟨u, ps, hu, d, hlen⟩ := exec_draws_lt hi s
  cases hu.symm.trans h
  exact BitVec.le_def.1 (d.wrcnt_le_plotcnt hlen)

/-! ### The register window -/

/-- The three fields of `ID` (R24). -/
theorem idWord_fields (cfg : Config) :
    (idWord cfg).extractLsb' 16 16 = 0xFB00#16 ∧
      (idWord cfg).extractLsb' 8 8 = BitVec.ofNat 8 cfg.fbH ∧
      (idWord cfg).extractLsb' 0 8 = BitVec.ofNat 8 cfg.fbW :=
  ⟨(BitVec.extractLsb'_append_eq_of_le (by decide)).trans BitVec.extractLsb'_append_eq_left,
    (BitVec.extractLsb'_append_eq_of_le (by decide)).trans BitVec.extractLsb'_append_eq_right,
    BitVec.extractLsb'_append_eq_right⟩

/-- Settles O41: a legal side fits its field of `ID`, and the read at offset 0 selects `ID`. -/
theorem idHoldsMagicAndGridSize : Obligations.IdHoldsMagicAndGridSize := by
  refine ⟨fun s hl => ?_, by decide⟩
  obtain ⟨-, hw, -, hh, -⟩ := legal_iff.1 hl
  obtain ⟨hmagic, hy, hx⟩ := idWord_fields s.cfg
  have hsel : selected s.cfg s.cfg.base .word = some .id := selected_reg s.cfg .id
  refine ⟨hmagic, ?_, ?_, ?_, ?_⟩
  · rw [readReg, hy, BitVec.toNat_ofNat, Nat.mod_eq_of_lt (by omega)]
  · rw [readReg, hx, BitVec.toNat_ofNat, Nat.mod_eq_of_lt (by omega)]
  · simp [readData, hsel]
  · simp [neverHeld, hsel]

/-- A register is reached at its own offset only (R23). -/
theorem toNat_of_regAt {o : BitVec 8} {r : Reg} (h : regAt o = some r) : o.toNat = r.offset := by
  unfold regAt at h
  split at h <;> cases h <;> assumption

/-- A 32-bit access in the window reaches the register that stands at its offset, or none, where no
register stands (R23, R32, R54). -/
theorem selected_window (cfg : Config) {k : Nat} (hk : k ≤ 0xFF) :
    (∃ r : Reg, k = r.offset ∧ selected cfg (cfg.base + k) .word = some r) ∨
      (selected cfg (cfg.base + k) .word = none ∧ k ≠ 0x00 ∧ k ≠ 0x04 ∧ k ≠ 0x08 ∧ k ≠ 0x0C ∧
        k ≠ 0x10 ∧ k ≠ 0x14 ∧ k ≠ 0x18 ∧ k ≠ 0x1C) := by
  by_cases hr : ∃ r : Reg, k = r.offset
  · obtain ⟨r, rfl⟩ := hr
    exact .inl ⟨r, rfl, selected_reg cfg r⟩
  · have hne : ∀ r : Reg, k ≠ r.offset := fun r h => hr ⟨r, h⟩
    have hreg : regAt (BitVec.ofNat 8 k) = none := by
      refine Option.eq_none_iff_forall_ne_some.2 fun r h => hne r ?_
      have hoff := toNat_of_regAt h
      rwa [BitVec.toNat_ofNat, Nat.mod_eq_of_lt (by omega)] at hoff
    refine .inr ⟨?_, hne .id, hne .status, hne .cmd, hne .arg0, hne .arg1, hne .pixdata,
      hne .plotcnt, hne .wrcnt⟩
    rw [selected, busOffset_add, hreg, ite_self]

/-- Settles O42: the register that stands at the offset, and what it reads as. -/
theorem readsFollowTheRegisterMap : Obligations.ReadsFollowTheRegisterMap := by
  intro s k hk
  rcases selected_window s.cfg hk with ⟨r, rfl, hsel⟩ | ⟨hsel, hne⟩
  · rw [readData, hsel]
    cases r <;> rfl
  · simp [readData, hsel, hne]

/-- Settles O44: the register that stands at the offset, and what a write does to it. -/
theorem writesFollowTheRegisterMap : Obligations.WritesFollowTheRegisterMap := by
  intro s k w hk
  rcases selected_window s.cfg hk with ⟨r, rfl, hsel⟩ | ⟨hsel, hne⟩
  · rw [complete, writeData, hsel]
    cases r <;> rfl
  · simp [complete, writeData, hsel, hne]

/-! ### The sink and reset -/

/-- Settles O38: the sink's turn, with a transfer offered and with none. -/
theorem sinkAcceptsOfferedTransferOnce : Obligations.SinkAcceptsOfferedTransferOnce := by
  intro s hl hn
  have hstep : step s = .next (sinkAccept (s.setTurns s.turns.tail)) := by
    rw [step_of_legal hl, hn]
    rfl
  rw [hstep, sinkAccept, setTurns_snk]
  refine ⟨fun hv => ?_, fun hv => ?_⟩
  · rw [if_pos hv]
    rfl
  · rw [if_neg (ne_true_of_eq_false hv)]
    rfl

/-- Settles O53: each field of the reset state. -/
theorem resetValues : Obligations.ResetValues :=
  ⟨rfl, rfl, rfl, rfl, rfl, rfl, rfl, rfl, rfl, rfl⟩

/-- Settles O56: the reset clear is about to run, nothing is listed, counted, offered or held. -/
theorem invariantAtReset : Obligations.InvariantAtReset where
  legal := rfl
  fbWf := rfl
  fbInGrid := fun _ hp => by cases hp
  busyIff := by decide
  counters := by decide
  pixdataLegal := .inr ⟨0, rfl⟩
  latched := fun hr => by cases hr
  sinkDriven := fun hv => by cases hv
  flushCursor := fun hr => by cases hr
  traceInGrid := fun _ ht => by cases ht
  pendingHeld := fun _ ha => by cases ha

end Sys2Proof.Machine

/-! ## Proofs: accesses to the window and repeated commands

The statements of the family `20_memory`. Which accesses reach a register is an `↔` for every offset
and width, `selected_eq_some_iff`; what the host's step does with an outstanding and with a new access
is one equation each, `step_of_pending` and `step_of_access`. That a drawing command repeats its plots
(O34) is `exec_draws_of_latch`: the latch alone fixes them. -/

namespace Sys2Proof.Machine

/-! ### A command run twice -/

/-- The plots of a drawing command depend on the latched operands alone (R38, R63). -/
theorem exec_draws_of_latch {i : Instr} {color : Nat}
    (hi : i = .setpix color ∨ i = .line color ∨ i = .rect color ∨ i = .fillrect color ∨
      i = .circle color) (s : State) :
    ∃ ps, ∀ t : State, t.latch = s.latch →
      ∃ u, exec i t = .next u ∧ DrawsExactly (maskColor color) ps t u := by
  rcases hi with rfl | rfl | rfl | rfl | rfl
  · refine ⟨[{ x := pointX s, y := pointY s }], fun t h => ?_⟩
    simpa only [exec, pointX, pointY, h] using execSetpix_draws color t
  · refine ⟨linePlots (pointX s) (pointY s) (endX s) (endY s), fun t h => ?_⟩
    simpa only [exec, pointX, pointY, endX, endY, h] using execLine_draws color t
  · refine ⟨rectPlots (pointX s) (pointY s) (sizeW s) (sizeH s), fun t h => ?_⟩
    simpa only [exec, pointX, pointY, sizeW, sizeH, h] using execRect_draws color t
  · refine ⟨fillPlots (pointX s) (pointY s) (sizeW s) (sizeH s), fun t h => ?_⟩
    simpa only [exec, pointX, pointY, sizeW, sizeH, h] using execFillrect_draws color t
  · refine ⟨circlePlots (pointX s) (pointY s) (radius s), fun t h => ?_⟩
    simpa only [exec, pointX, pointY, radius, h] using execCircle_draws color t

/-- The same plots made again: every cell they reach has their colour already, and the counters count
them anew from 0 (R58, R116). -/
theorem DrawsExactly.again {c : Color} {ps : List Point} {s t u : State}
    (h : DrawsExactly c ps s t) (h' : DrawsExactly c ps t u) (hw : s.fb.wf = true) :
    u.fb = t.fb ∧ u.pixdata = t.pixdata ∧ u.plotcnt = t.plotcnt ∧ u.wrcnt = t.wrcnt := by
  have hcfg : t.cfg = s.cfg := by rw [h.frame]
  have hwt : t.fb.wf = true := h.fb_wf hw
  refine ⟨Memory.ext_of_read (h'.fb_wf hwt) hwt fun a => ?_, by rw [h'.frame], ?_, ?_⟩
  · rw [h'.read hwt, h.read hw, hcfg]
    split <;> rfl
  · rw [h'.plotcnt, h.plotcnt]
  · rw [h'.wrcnt, h.wrcnt, hcfg]

/-- A cleared buffer cleared again is the same list (R58, R113). -/
theorem clearCells_again {s t : State} (hcfg : t.cfg = s.cfg) (hfb : t.fb = (clearCells s).fb)
    (hw : s.fb.wf = true) : (clearCells t).fb = t.fb := by
  have hwt : t.fb.wf = true := hfb ▸ clearCells_wf s hw
  refine Memory.ext_of_read (clearCells_wf t hwt) hwt fun a => ?_
  rw [clearCells_read t hwt, hcfg, hfb, clearCells_read s hw]
  split <;> rfl

/-- A drawing command run a second time (R58). -/
theorem exec_again_of_draws {i : Instr} {color : Nat}
    (hi : i = .setpix color ∨ i = .line color ∨ i = .rect color ∨ i = .fillrect color ∨
      i = .circle color) {s t : State} (hw : s.fb.wf = true) (h : exec i s = .next t) :
    ∃ u : State, exec i t = .next u ∧ u.fb = t.fb ∧ u.pixdata = t.pixdata ∧
      u.plotcnt = t.plotcnt ∧ u.wrcnt = t.wrcnt := by
  obtain ⟨ps, hps⟩ := exec_draws_of_latch hi s
  obtain ⟨t', ht, d⟩ := hps s rfl
  cases h.symm.trans ht
  obtain ⟨u, hu, d'⟩ := hps t (by rw [d.frame])
  exact ⟨u, hu, d.again d' hw⟩

/-- Settles O34: the second run draws the same plots, clears what is clear, or reads the same cell. -/
theorem commandsAreIdempotent : Obligations.CommandsAreIdempotent := by
  intro i s t hi hw h
  cases i with
  | nop | reserved9 | reservedAB _ | reservedCF _ | getpix =>
    cases h
    exact ⟨_, rfl, rfl, rfl, rfl, rfl⟩
  | clear =>
    cases (execClear_frame s).symm.trans h
    exact ⟨_, execClear_frame _, clearCells_again (s := s) rfl rfl hw, rfl, rfl, rfl⟩
  | setpix color | line color | rect color | fillrect color | circle color =>
    exact exec_again_of_draws (color := color) (by simp) hw h
  | flush => exact absurd rfl hi

/-! ### The accesses that reach a register -/

/-- A register is reached by the 32-bit accesses at its offset and by no other (R23, R53, R54). -/
theorem selected_eq_some_iff (cfg : Config) {k : Nat} (hk : k ≤ 0xFF) (width : AccessWidth)
    (r : Reg) :
    selected cfg (cfg.base + k) width = some r ↔ width = .word ∧ k = r.offset := by
  refine ⟨fun h => ?_, fun ⟨hw, ho⟩ => ?_⟩
  · rw [selected, busOffset_add, Option.ite_none_right_eq_some, honoured, Bool.and_eq_true,
      decide_eq_true_iff] at h
    obtain ⟨⟨hw, -⟩, hreg⟩ := h
    have ho := toNat_of_regAt hreg
    rw [BitVec.toNat_ofNat, Nat.mod_eq_of_lt (by omega)] at ho
    exact ⟨hw, ho⟩
  · rw [hw, ho, selected_reg]

/-- A register's offset is a multiple of 4 (R23). -/
theorem Reg.offset_aligned (r : Reg) : r.offset % 4 = 0 := by cases r <;> rfl

/-- A narrow or misaligned access reaches no register (R53, R54). -/
theorem selected_eq_none (cfg : Config) {k : Nat} (hk : k ≤ 0xFF) {width : AccessWidth}
    (h : width ≠ .word ∨ k % 4 ≠ 0) : selected cfg (cfg.base + k) width = none := by
  refine Option.eq_none_iff_forall_ne_some.2 fun r hr => ?_
  obtain ⟨hw, rfl⟩ := (selected_eq_some_iff cfg hk width r).1 hr
  exact h.elim (· hw) (· r.offset_aligned)

/-- Settles O45: an access that reaches no register neither writes nor reads one. -/
theorem narrowOrMisalignedHasNoEffect : Obligations.NarrowOrMisalignedHasNoEffect := by
  intro s k width w hk h
  have hsel := selected_eq_none s.cfg hk h
  rw [complete, complete, writeData, readData, hsel]
  exact ⟨rfl, rfl⟩

/-- Settles O46: the 32-bit reads that reach `ID` or `STATUS`, by the offsets of these two. -/
theorem onlyStatusAndIdReadsAreNeverHeld : Obligations.OnlyStatusAndIdReadsAreNeverHeld := by
  intro cfg k width w hk
  refine ⟨?_, rfl⟩
  rw [neverHeld, Bool.or_eq_true, decide_eq_true_iff, decide_eq_true_iff,
    selected_eq_some_iff cfg hk, selected_eq_some_iff cfg hk]
  exact and_or_left.symm

/-- Settles O43: what `recordRead` is. -/
theorem readsHaveNoSideEffect : Obligations.ReadsHaveNoSideEffect := fun _ _ _ => rfl

/-! ### The host's step -/

/-- From legal parameters, a step at which the host is next is the host's turn. -/
theorem step_of_host {s : State} (hl : s.cfg.legal = true) (hn : nextTurn s = .host) :
    step s = hostTurn (s.setTurns s.turns.tail) := by
  rw [step_of_legal hl, hn]
  rfl

/-- The outstanding access waits while `BUSY = 1` and otherwise completes (R60). -/
theorem hostTurn_of_pending {s : State} {a : Access} (hp : s.pending = some a) :
    hostTurn s = if s.busy then .next s else .next (complete a { s with pending := none }) := by
  simp only [hostTurn, hp]

/-- A new access becomes the outstanding one if it is held and otherwise completes; outside the
window it faults (R52, R60, log 10). -/
theorem hostTurn_of_access {s : State} {a : Access} {rest : List HostOp} (hp : s.pending = none)
    (hr : s.program = .access a :: rest) :
    hostTurn s =
      if inWindow s.cfg a.addr then
        if held s a then .next { s with program := rest, pending := some a }
        else .next (complete a { s with program := rest })
      else .fault .outsideWindow := by
  simp only [hostTurn, hp, hr]

/-- The host's step with an access outstanding (R60). -/
theorem step_of_pending {s : State} {a : Access} (hl : s.cfg.legal = true) (hn : nextTurn s = .host)
    (hp : s.pending = some a) :
    step s =
      if s.busy then .next { s with turns := s.turns.tail }
      else .next (complete a { s with pending := none, turns := s.turns.tail }) :=
  (step_of_host hl hn).trans (hostTurn_of_pending hp)

/-- The host's step at a new access (R52, R60, log 10). -/
theorem step_of_access {s : State} {a : Access} {rest : List HostOp} (hl : s.cfg.legal = true)
    (hn : nextTurn s = .host) (hp : s.pending = none) (hr : s.program = .access a :: rest) :
    step s =
      if inWindow s.cfg a.addr then
        if held s a then .next { s with program := rest, pending := some a, turns := s.turns.tail }
        else .next (complete a { s with program := rest, turns := s.turns.tail })
      else .fault .outsideWindow :=
  (step_of_host hl hn).trans (hostTurn_of_access hp hr)

/-- Outside the window is below its first or above its last address (R52). -/
theorem inWindow_eq_false_iff {cfg : Config} {addr : Nat} :
    inWindow cfg addr = false ↔ addr < cfg.base ∨ cfg.base + 0xFF < addr := by
  rw [inWindow, Bool.and_eq_false_iff, decide_eq_false_iff_not, decide_eq_false_iff_not, Nat.not_le,
    Nat.not_le]

/-- An access is not held while `BUSY = 0`, nor if it is of the class that never is (R60, R61). -/
theorem held_eq_false_iff {s : State} {a : Access} :
    held s a = false ↔ s.busy = false ∨ neverHeld s.cfg a = true := by
  rw [held, Bool.and_eq_false_iff, Bool.not_eq_false']

/-- Settles O47: the arrival of a held access, its waiting, and its completion. -/
theorem heldAccessWaitsThenCompletes : Obligations.HeldAccessWaitsThenCompletes := by
  intro s a hl hn
  refine ⟨fun rest hb hp hr hwin hnh => ?_, fun hb hp => ?_, fun hb hp => ?_⟩
  · have hheld : held s a = true := by simp [held, hb, hnh]
    rw [step_of_access hl hn hp hr, if_pos hwin, if_pos hheld]
  · rw [step_of_pending hl hn hp, if_pos hb]
  · rw [step_of_pending hl hn hp, if_neg (ne_true_of_eq_false hb)]

/-- Settles O48: an access in the window that is not held. -/
theorem unheldAccessCompletesAtOnce : Obligations.UnheldAccessCompletesAtOnce := by
  intro s a rest hl hn hp hr hwin hfree
  have hheld : held s a = false := held_eq_false_iff.2 hfree
  rw [step_of_access hl hn hp hr, if_pos hwin, if_neg (ne_true_of_eq_false hheld)]

/-- Settles O50: an access on either side of the window. -/
theorem accessOutsideWindowFaults : Obligations.AccessOutsideWindowFaults := by
  intro s a rest hl hn hp hr hout
  have hwin : inWindow s.cfg a.addr = false := inWindow_eq_false_iff.2 hout
  rw [step_of_access hl hn hp hr, if_neg (ne_true_of_eq_false hwin)]

end Sys2Proof.Machine

/-! ## Proofs: the encoding, the operands and the expansions

The statements of the family `30_encoding`. A command is told by the two fields its word carries,
`Instr.opField` and `Instr.colorField`; the round trips (O1, O2) and the table's rows (O3, O4) are
about these. That the expansions start their commands (O21) and that `GETPIX`'s trailing read gets its
result (O59) is put together from the host's steps, one at a time: a register write while idle
(`step_of_wr`), and an access that is due, issued already or not (`AccessDue`). -/

namespace Sys2Proof

/-! ### The two fields of a command -/

/-- The `OP` field of a command's word (R80, R86). -/
def Instr.opField : Instr → Nat
  | .nop => 0x0
  | .clear => 0x1
  | .setpix _ => 0x2
  | .getpix => 0x3
  | .line _ => 0x4
  | .rect _ => 0x5
  | .fillrect _ => 0x6
  | .circle _ => 0x7
  | .flush => 0x8
  | .reserved9 => 0x9
  | .reservedAB op => op
  | .reservedCF op => op

/-- The `COLOR` field of a command's word, 0 where the command has no colour (R80, R90). -/
def Instr.colorField : Instr → Nat
  | .setpix color | .line color | .rect color | .fillrect color | .circle color => color
  | _ => 0

/-- The encoder writes the two fields and nothing else (R87, R90). -/
theorem encode_eq_commandWord (i : Instr) : encode i = commandWord i.opField i.colorField := by
  cases i <;> rfl

/-- The commands that carry a colour in their word carry it in `COLOR` (R80). -/
theorem colorField_of_coloured {i : Instr} {color : Nat}
    (h : i = .setpix color ∨ i = .line color ∨ i = .rect color ∨ i = .fillrect color ∨
      i = .circle color) : i.colorField = color := by
  rcases h with rfl | rfl | rfl | rfl | rfl <;> rfl

/-- A well-formed command's fields fit the word (R80). -/
theorem fields_lt_of_wf {i : Instr} (h : i.wf = true) : i.opField < 16 ∧ i.colorField < 256 := by
  cases i with
  | nop | clear | getpix | flush | reserved9 => decide
  | setpix color | line color | rect color | fillrect color | circle color =>
    exact ⟨by simp [Instr.opField], of_decide_eq_true h⟩
  | reservedAB op | reservedCF op =>
    simp only [Instr.wf, Bool.or_eq_true, Bool.and_eq_true, decide_eq_true_iff] at h
    simp only [Instr.opField, Instr.colorField]
    omega

/-- The fields of a well-formed command's word, as the decoder reads them (R80). -/
theorem cmdFields_encode {i : Instr} (h : i.wf = true) :
    cmdOp (encode i) = BitVec.ofNat 4 i.opField ∧
      cmdColor (encode i) = BitVec.ofNat 8 i.colorField := by
  obtain ⟨hop, hcolor⟩ := fields_lt_of_wf h
  rw [encode_eq_commandWord]
  exact cmdFields_commandWord hop hcolor

/-- The opcode map gives a well-formed command back from its two fields (R86). -/
theorem decodeOp_fields {i : Instr} (h : i.wf = true) :
    decodeOp (BitVec.ofNat 4 i.opField) (BitVec.ofNat 8 i.colorField) = i := by
  cases i with
  | nop | clear | getpix | flush | reserved9 => rfl
  | setpix color | line color | rect color | fillrect color | circle color =>
    have hcolor : color < 256 := of_decide_eq_true h
    simp [Instr.opField, Instr.colorField, decodeOp, Nat.mod_eq_of_lt hcolor]
  | reservedAB op =>
    have hop : op = 0xA ∨ op = 0xB := by simpa [Instr.wf] using h
    rcases hop with rfl | rfl <;> rfl
  | reservedCF op =>
    have hop : 0xC ≤ op ∧ op ≤ 0xF := by simpa [Instr.wf] using h
    obtain ⟨hlo, hhi⟩ := hop
    interval_cases op <;> rfl

/-- Settles O1: the decoder reads the two fields the encoder wrote, and the opcode map gives the
command back from them. -/
theorem decodeEncodeRoundTrip : Obligations.DecodeEncodeRoundTrip := by
  intro i h
  obtain ⟨hop, hcolor⟩ := cmdFields_encode h
  rw [decode, hop, hcolor, decodeOp_fields h]

/-- The opcode map answers a well-formed command with the `OP` it was given (R86, R87). -/
theorem decodeOp_opField (op : BitVec 4) (c : BitVec 8) :
    (decodeOp op c).wf = true ∧ (decodeOp op c).opField = op.toNat := by
  have hop : op.toNat < 16 := op.isLt
  have hcolor : colorFits c.toNat = true := decide_eq_true c.isLt
  interval_cases h : op.toNat <;> simp [decodeOp, h, Instr.wf, Instr.opField, hcolor]

/-- A colour in the command the opcode map answers is the `COLOR` it was given (R80). -/
theorem decodeOp_coloured {op : BitVec 4} {c : BitVec 8} {color : Nat}
    (h : decodeOp op c = .setpix color ∨ decodeOp op c = .line color ∨ decodeOp op c = .rect color ∨
      decodeOp op c = .fillrect color ∨ decodeOp op c = .circle color) : color = c.toNat := by
  unfold decodeOp at h
  split at h <;> simp at h <;> exact h.symm

/-- The decoder answers well-formed commands only, with the word's own `OP` (R86, R87). -/
theorem decode_opField (w : Word) :
    (decode w).wf = true ∧ (decode w).opField = (cmdOp w).toNat := decodeOp_opField ..

/-- Encoding what was decoded keeps `OP` (R86). -/
theorem cmdOp_encode_decode (w : Word) : cmdOp (encode (decode w)) = cmdOp w := by
  obtain ⟨hwf, hop⟩ := decode_opField w
  rw [(cmdFields_encode hwf).1, hop, BitVec.ofNat_toNat, BitVec.setWidth_eq]

/-- Settles O2: the decoded command's fields are those of the word. -/
theorem encodeDecodeKeepsFields : Obligations.EncodeDecodeKeepsFields := by
  intro w
  obtain ⟨hwf, -⟩ := decode_opField w
  refine ⟨hwf, decodeEncodeRoundTrip _ hwf, cmdOp_encode_decode w, fun color h => ?_⟩
  have hcolor : color = (cmdColor w).toNat := decodeOp_coloured h
  refine ⟨hcolor, ?_⟩
  rw [(cmdFields_encode hwf).2, colorField_of_coloured h, hcolor, BitVec.ofNat_toNat,
    BitVec.setWidth_eq]

/-! ### The rows of the opcode table -/

/-- A row's mask lies in `CMD[3:0]` (R86). -/
theorem opcodeRows_mask {r : OpcodeRow} (hr : r ∈ opcodeRows) : r.mask &&& 0xF = r.mask := by
  revert r
  decide

/-- `CMD & 0xF` is `OP` (R80). -/
theorem and_opMask (w : Word) : w &&& 0xF = (cmdOp w).setWidth 32 := by
  apply BitVec.eq_of_toNat_eq
  have hlow : (w &&& 0xF).toNat = w.toNat % 16 := Nat.and_two_pow_sub_one_eq_mod w.toNat 4
  rw [hlow, cmdOp, BitVec.toNat_setWidth, BitVec.extractLsb'_toNat]
  omega

/-- Words with the same `OP` are selected by the same rows (R88). -/
theorem filter_opcodeRows_congr {v w : Word} (h : cmdOp v = cmdOp w) :
    (opcodeRows.filter fun r => r.matchesWord v) = opcodeRows.filter fun r => r.matchesWord w := by
  refine List.filter_congr fun r hr => ?_
  have hmask : v &&& r.mask = w &&& r.mask := by
    rw [← opcodeRows_mask hr, BitVec.and_comm r.mask, ← BitVec.and_assoc, ← BitVec.and_assoc,
      and_opMask, and_opMask, h]
  rw [OpcodeRow.matchesWord, OpcodeRow.matchesWord, hmask]

/-- The encoded word of every well-formed command is selected by the command's own row alone (R86). -/
theorem ownRow (i : Instr) : Laws.OwnRow.Statement i := by
  cases i with
  | nop => exact Laws.OwnRow.nop
  | clear => exact Laws.OwnRow.clear
  | setpix color => exact Laws.OwnRow.setpix color
  | getpix => exact Laws.OwnRow.getpix
  | line color => exact Laws.OwnRow.line color
  | rect color => exact Laws.OwnRow.rect color
  | fillrect color => exact Laws.OwnRow.fillrect color
  | circle color => exact Laws.OwnRow.circle color
  | flush => exact Laws.OwnRow.flush
  | reserved9 => exact Laws.OwnRow.reserved9
  | reservedAB op => exact Laws.OwnRow.reservedAB op
  | reservedCF op => exact Laws.OwnRow.reservedCF op

/-- Settles O3: the word is selected as the word of its decoded command, which has the same `OP`. -/
theorem everyWordSelectsOneRow : Obligations.EveryWordSelectsOneRow := by
  intro w
  obtain ⟨hwf, -⟩ := decode_opField w
  rw [← filter_opcodeRows_congr (cmdOp_encode_decode w)]
  exact ownRow (decode w) hwf

/-- Settles O4: both words are selected by the same one row. -/
theorem opAloneSelectsCommand : Obligations.OpAloneSelectsCommand := by
  intro v w h
  have hrow := everyWordSelectsOneRow v
  rw [filter_opcodeRows_congr h, everyWordSelectsOneRow w] at hrow
  exact (List.singleton_inj.1 hrow).symm

/-- Settles O5: each word's fields, through the opcode map. -/
theorem specWordsDecode : Obligations.SpecWordsDecode :=
  ⟨rfl, rfl, rfl, rfl, rfl, rfl, rfl, rfl, rfl, rfl, rfl, rfl, rfl⟩

end Sys2Proof

namespace Sys2Proof.Machine

/-! ### The colour and the operands -/

/-- Settles O6: a word acts through its `OP` and its two low colour bits only. -/
theorem ignoredBitsHaveNoEffect : Obligations.IgnoredBitsHaveNoEffect :=
  fun _ _ s hop hc => exec_decode_congr hop hc s

/-- Settles O7: masking to two bits is the remainder mod 4. -/
theorem colourIsMasked : Obligations.ColourIsMasked := by
  intro color
  rw [maskColor, BitVec.toNat_ofNat]
  exact (Nat.and_two_pow_sub_one_eq_mod color 2).symm

/-- Settles O18: what each operand is. -/
theorem operandsAreHalvesOfTheLatch : Obligations.OperandsAreHalvesOfTheLatch :=
  fun _ => ⟨rfl, rfl, rfl, rfl, rfl, rfl, rfl⟩

/-- A coordinate of the encodable range is read back from its half (R84). -/
theorem sext16_packCoord {v : Int} (hlo : -32768 ≤ v) (hhi : v ≤ 32767) :
    sext16 (packCoord v) = v := by
  rw [sext16, packCoord, BitVec.toInt_ofInt]
  exact Int.bmod_eq_of_le (by omega) (by omega)

/-- A size or radius of the encodable range is read back from its half (R85). -/
theorem zext16_ofNat {n : Nat} (h : n ≤ 65535) : zext16 (BitVec.ofNat 16 n) = n := by
  rw [zext16, BitVec.toNat_ofNat, Nat.mod_eq_of_lt (by omega)]

/-- The low half of a packed radius is the radius mod 2^16 (R85). -/
theorem lowHalf_packRadius (r : Nat) : lowHalf (packRadius r) = BitVec.ofNat 16 r := by
  apply BitVec.eq_of_toNat_eq
  rw [lowHalf, packRadius, BitVec.extractLsb'_toNat, BitVec.toNat_ofNat, BitVec.toNat_ofNat]
  simp

/-- Settles O20: the halves of a packed word are what was packed, and each is in its half's range. -/
theorem packedOperandsReadBack : Obligations.PackedOperandsReadBack := by
  refine ⟨fun x y hx hx' hy hy' => ?_, fun w h hw hh => ?_, fun r hr => ?_⟩
  · rw [packPoint, lowHalf_append, highHalf_append]
    exact ⟨sext16_packCoord hx hx', sext16_packCoord hy hy'⟩
  · rw [packSize, lowHalf_append, highHalf_append]
    exact ⟨zext16_ofNat hw, zext16_ofNat hh⟩
  · rw [lowHalf_packRadius, zext16_ofNat hr]

/-! ### A run in two parts -/

/-- A run of `m + n` steps is one of `m` and one of `n` from where that ends, of any machine. -/
theorem coreRun_add_next (M : Host.Core) (m n : Nat) (s t : M.State) :
    M.run (m + n) s = .next t ↔ ∃ u, M.run m s = .next u ∧ M.run n u = .next t := by
  induction m generalizing s with
  | zero => simp [Host.Core.run]
  | succ m ih =>
    rw [Nat.succ_add, coreRun_succ_next]
    simp only [ih, coreRun_succ_next]
    exact ⟨fun ⟨v, hv, u, hu, ht⟩ => ⟨u, ⟨v, hv, hu⟩, ht⟩,
      fun ⟨u, ⟨v, hv, hu⟩, ht⟩ => ⟨v, hv, u, hu, ht⟩⟩

/-- The next turn is the head of `turns` (log 6). -/
theorem nextTurn_of_turns {s : State} {a : Agent} {ts : List Agent} (h : s.turns = a :: ts) :
    nextTurn s = a := by
  rw [nextTurn, h]

/-! ### The host's step at `WAIT` -/

/-- `WAIT` polls `STATUS`, and is passed when it reads 0 (R92). -/
theorem hostTurn_of_wait {s : State} {rest : List HostOp} (hp : s.pending = none)
    (hr : s.program = .wait :: rest) :
    hostTurn s =
      .next (recordRead (statusWord s.busy) { s with program := if s.busy then s.program else rest }) := by
  simp only [hostTurn, hp, hr]

/-- Settles O49: the poll while busy and the poll while idle. -/
theorem waitPollsStatus : Obligations.WaitPollsStatus := by
  intro s rest hl hn hp hr
  have hpoll := hostTurn_of_wait (s := s.setTurns s.turns.tail) hp hr
  rw [step_of_host hl hn, hpoll, setTurns_busy]
  refine ⟨fun hb => ?_, fun hb => ?_⟩ <;> rw [hb] <;> rfl

/-! ### The host's register writes from an idle FBR -/

section
variable {s : State} {rest : List HostOp} {ts : List Agent}

/-- The host's step at a register write while idle (R51, R89). -/
theorem step_of_wr {r : Reg} {w : Word} (hl : s.cfg.legal = true) (hb : s.busy = false)
    (hp : s.pending = none) (hr : s.program = wr s.cfg r w :: rest) (ht : s.turns = .host :: ts) :
    step s = .next (writeReg w { s with program := rest, turns := ts } r) := by
  rw [unheldAccessCompletesAtOnce s _ rest hl (nextTurn_of_turns ht) hp hr (inWindow_reg s.cfg r)
    (.inl hb), complete, writeData, selected_reg, ht]
  rfl

/-- The write of `CMD` starts its command (R56). -/
theorem run_wrCmd {w : Word} (hl : s.cfg.legal = true) (hb : s.busy = false) (hp : s.pending = none)
    (hr : s.program = wr s.cfg .cmd w :: rest) (ht : s.turns = .host :: ts) :
    Host.Core.run Sys2Proof.core 1 s =
      .next (startCommand w { s with program := rest, turns := ts }) :=
  run_succ_next.2 ⟨_, step_of_wr hl hb hp hr ht, rfl⟩

/-- The write of `ARG0` before it (R90). -/
theorem run_wrArg0 {a w : Word} (hl : s.cfg.legal = true) (hb : s.busy = false)
    (hp : s.pending = none) (hr : s.program = wr s.cfg .arg0 a :: wr s.cfg .cmd w :: rest)
    (ht : s.turns = .host :: .host :: ts) :
    Host.Core.run Sys2Proof.core 2 s =
      .next (startCommand w { s with arg0 := a, program := rest, turns := ts }) :=
  run_succ_next.2 ⟨_, step_of_wr hl hb hp hr ht, run_wrCmd hl hb hp rfl rfl⟩

/-- The writes of `ARG0` and `ARG1` before it (R90). -/
theorem run_wrArgs {a b w : Word} (hl : s.cfg.legal = true) (hb : s.busy = false)
    (hp : s.pending = none)
    (hr : s.program = wr s.cfg .arg0 a :: wr s.cfg .arg1 b :: wr s.cfg .cmd w :: rest)
    (ht : s.turns = .host :: .host :: .host :: ts) :
    Host.Core.run Sys2Proof.core 3 s =
      .next (startCommand w { s with arg0 := a, arg1 := b, program := rest, turns := ts }) := by
  have harg1 : Host.Core.run Sys2Proof.core 2
      { s with arg0 := a, program := wr s.cfg .arg1 b :: wr s.cfg .cmd w :: rest
               turns := .host :: .host :: ts } =
      .next (startCommand w { s with arg0 := a, arg1 := b, program := rest, turns := ts }) :=
    run_succ_next.2 ⟨_, step_of_wr hl hb hp rfl rfl, run_wrCmd hl hb hp rfl rfl⟩
  exact run_succ_next.2 ⟨_, step_of_wr hl hb hp hr ht, harg1⟩

end

/-! ### The expansions -/

/-- The latch of an encoded command acts as the command (R38, R90). -/
theorem exec_started {i : Instr} (hi : i.wf = true) (s t : State) :
    exec (decode (startCommand (encode i) s).latch.word) t = exec i t := by
  rw [latchedWordActsAsWritten, decodeEncodeRoundTrip i hi]

section
variable {p : Pseudo} {left : Config → List HostOp} {i : Instr} {operands : State → Prop}

/-- An expansion without operands (R90). -/
theorem expansionStarts_cmd (hi : i.wf = true)
    (he : ∀ cfg, expand cfg p = wr cfg .cmd (encode i) :: left cfg) :
    ExpansionStarts p 1 left i (fun _ => True) := by
  intro s rest ts hl hb hp hr ht
  rw [he] at hr
  exact ⟨_, run_wrCmd hl hb hp hr ht, trivial, exec_started hi _ _, rfl⟩

/-- An expansion that loads `ARG0` (R90). -/
theorem expansionStarts_arg0 {a : Word} (hi : i.wf = true)
    (he : ∀ cfg, expand cfg p = wr cfg .arg0 a :: wr cfg .cmd (encode i) :: left cfg)
    (ho : ∀ t : State, t.latch.arg0 = a → operands t) : ExpansionStarts p 2 left i operands := by
  intro s rest ts hl hb hp hr ht
  rw [he] at hr
  exact ⟨_, run_wrArg0 hl hb hp hr ht, ho _ rfl, exec_started hi _ _, rfl⟩

/-- An expansion that loads `ARG0` and `ARG1` (R90). -/
theorem expansionStarts_arg0_arg1 {a b : Word} (hi : i.wf = true)
    (he : ∀ cfg, expand cfg p =
      wr cfg .arg0 a :: wr cfg .arg1 b :: wr cfg .cmd (encode i) :: left cfg)
    (ho : ∀ t : State, t.latch.arg0 = a → t.latch.arg1 = b → operands t) :
    ExpansionStarts p 3 left i operands := by
  intro s rest ts hl hb hp hr ht
  rw [he] at hr
  exact ⟨_, run_wrArgs hl hb hp hr ht, ho _ rfl rfl, exec_started hi _ _, rfl⟩

end

/-- Settles O21: the three shapes of an expansion, and each packed operand read back (O20). -/
theorem expansionLoadsOperands : Obligations.ExpansionLoadsOperands := by
  intro x y x1 y1 w h r c hx hx' hy hy' hx1 hx1' hy1 hy1' hw hh hr hc
  have hcolor : colorFits c = true := decide_eq_true (Nat.lt_succ_of_le hc)
  obtain ⟨points, sizes, radii⟩ := packedOperandsReadBack
  have hpoint : ∀ t : State, t.latch.arg0 = packPoint x y → pointX t = x ∧ pointY t = y :=
    fun t h0 => by rw [pointX, pointY, h0]; exact points x y hx hx' hy hy'
  have hend : ∀ t : State, t.latch.arg1 = packPoint x1 y1 → endX t = x1 ∧ endY t = y1 :=
    fun t h1 => by rw [endX, endY, h1]; exact points x1 y1 hx1 hx1' hy1 hy1'
  have hsize : ∀ t : State, t.latch.arg1 = packSize w h → sizeW t = w ∧ sizeH t = h :=
    fun t h1 => by rw [sizeW, sizeH, h1]; exact sizes w h hw hh
  have hradius : ∀ t : State, t.latch.arg1 = packRadius r → radius t = r :=
    fun t h1 => by rw [radius, h1]; exact radii r hr
  exact
    ⟨expansionStarts_cmd rfl fun _ => rfl,
      expansionStarts_cmd rfl fun _ => rfl,
      expansionStarts_arg0 hcolor (fun _ => rfl) hpoint,
      expansionStarts_arg0 rfl (fun _ => rfl) hpoint,
      expansionStarts_arg0_arg1 hcolor (fun _ => rfl) fun t h0 h1 =>
        and_assoc.1 ⟨hpoint t h0, hend t h1⟩,
      expansionStarts_arg0_arg1 hcolor (fun _ => rfl) fun t h0 h1 =>
        and_assoc.1 ⟨hpoint t h0, hsize t h1⟩,
      expansionStarts_arg0_arg1 hcolor (fun _ => rfl) fun t h0 h1 =>
        and_assoc.1 ⟨hpoint t h0, hsize t h1⟩,
      expansionStarts_arg0_arg1 hcolor (fun _ => rfl) fun t h0 h1 =>
        and_assoc.1 ⟨hpoint t h0, hradius t h1⟩,
      expansionStarts_cmd rfl fun _ => rfl⟩

/-! ### An access that is due -/

/-- `a` is the host's next access: the next line of its program, or outstanding already (R60). -/
def AccessDue (a : Access) (rest : List HostOp) (s : State) : Prop :=
  (s.pending = none ∧ s.program = .access a :: rest) ∨ (s.pending = some a ∧ s.program = rest)

namespace AccessDue

variable {a : Access} {rest : List HostOp} {s : State}

/-- While busy, a host turn at a due access of the held class leaves it due: it becomes outstanding or
stays so (R60). -/
theorem step_of_busy (h : AccessDue a rest s) (hl : s.cfg.legal = true) (hn : nextTurn s = .host)
    (hb : s.busy = true) (hw : inWindow s.cfg a.addr = true) (hh : neverHeld s.cfg a = false) :
    step s = .next { s with program := rest, pending := some a, turns := s.turns.tail } := by
  obtain ⟨arrives, waits, -⟩ := heldAccessWaitsThenCompletes s a hl hn
  rcases h with ⟨hp, hr⟩ | ⟨hp, hr⟩
  · exact arrives rest hb hp hr hw hh
  · rw [waits hb hp, ← hr, ← hp]

/-- While idle, a host turn completes a due access, as if it arrived then (R51, R60). -/
theorem step_of_idle (h : AccessDue a rest s) (hl : s.cfg.legal = true) (hn : nextTurn s = .host)
    (hb : s.busy = false) (hw : inWindow s.cfg a.addr = true) :
    step s = .next (complete a { s with program := rest, pending := none, turns := s.turns.tail }) := by
  obtain ⟨-, -, completes⟩ := heldAccessWaitsThenCompletes s a hl hn
  rcases h with ⟨hp, hr⟩ | ⟨hp, hr⟩
  · rw [unheldAccessCompletesAtOnce s a rest hl hn hp hr hw (.inl hb), ← hp]
  · rw [completes hb hp, ← hr]

/-- Any number of host turns while busy leave a due access of the held class due, and change nothing
but the host's own side (R60). -/
theorem run_of_busy (k : Nat) (ts : List Agent) (h : AccessDue a rest s) (hl : s.cfg.legal = true)
    (hb : s.busy = true) (hw : inWindow s.cfg a.addr = true) (hh : neverHeld s.cfg a = false)
    (ht : s.turns = List.replicate k .host ++ ts) :
    ∃ (p : List HostOp) (q : Option Access),
      Host.Core.run Sys2Proof.core k s = .next { s with program := p, pending := q, turns := ts } ∧
      AccessDue a rest { s with program := p, pending := q, turns := ts } := by
  induction k generalizing s with
  | zero =>
    cases (show s.turns = ts from ht)
    exact ⟨s.program, s.pending, rfl, h⟩
  | succ k ih =>
    have hstep := h.step_of_busy hl (nextTurn_of_turns ht) hb hw hh
    rw [ht] at hstep
    obtain ⟨p, q, hrun, hdue⟩ := ih (s := { s with
      program := rest, pending := some a, turns := List.replicate k .host ++ ts })
      (.inr ⟨rfl, rfl⟩) hl hb hw hh rfl
    exact ⟨p, q, run_succ_next.2 ⟨_, hstep, hrun⟩, hdue⟩

end AccessDue

/-! ### `GETPIX` and its trailing read -/

/-- The access of `RD PIXDATA` (R89). -/
def rdPixdata (cfg : Config) : Access := .read (cfg.base + Reg.pixdata.offset) .word

/-- `RD PIXDATA` is of the held class (R60). -/
theorem neverHeld_rdPixdata (cfg : Config) : neverHeld cfg (rdPixdata cfg) = false := by
  rw [rdPixdata, neverHeld, selected_reg]
  rfl

/-- A completed `RD PIXDATA` hands the host what `PIXDATA` holds (R29, R89). -/
theorem complete_rdPixdata (s : State) : complete (rdPixdata s.cfg) s = recordRead s.pixdata s := by
  rw [rdPixdata, complete, readData, selected_reg]
  rfl

section
variable {s : State} {rest : List HostOp} {ts : List Agent}

/-- The engine's step at a latched `GETPIX` (R115). -/
theorem step_of_getpix (hl : s.cfg.legal = true) (ht : s.turns = .engine :: ts)
    (he : s.eng = .running) (hi : ∀ t, exec (decode s.latch.word) t = exec .getpix t) :
    step s = .next { s with
      pixdata := getpixWord (pointX s) (pointY s) s, eng := .idle, busy := false, turns := ts } := by
  rw [stepRunsLatchedCommand s hl (nextTurn_of_turns ht) he, hi, ht]
  rfl

/-- The engine's turn at a latched `GETPIX` and the host's turn at `RD PIXDATA`, due by then: the
value that was read is the one the command wrote (R60, R115). -/
theorem run_getpix_rdPixdata (hl : s.cfg.legal = true) (he : s.eng = .running)
    (hi : ∀ t, exec (decode s.latch.word) t = exec .getpix t)
    (hdue : AccessDue (rdPixdata s.cfg) rest s) (ht : s.turns = .engine :: .host :: ts) :
    Host.Core.run Sys2Proof.core 2 s = .next { s with
      pixdata := getpixWord (pointX s) (pointY s) s, eng := .idle, busy := false
      reads := s.reads ++ [getpixWord (pointX s) (pointY s) s]
      program := rest, pending := none, turns := ts } := by
  refine run_succ_next.2 ⟨_, step_of_getpix hl ht he hi, run_succ_next.2 ⟨_, ?_, rfl⟩⟩
  have hdue' : AccessDue (rdPixdata s.cfg) rest { s with
      pixdata := getpixWord (pointX s) (pointY s) s, eng := .idle, busy := false
      turns := .host :: ts } := hdue
  rw [hdue'.step_of_idle hl rfl rfl (inWindow_reg ..)]
  exact congrArg _ (complete_rdPixdata _)

/-- Where `GETPIX`, accepted at `s`, and its trailing read lead: the cell's word stands in `PIXDATA` and
among the host's reads (R90, R115). -/
def getpixRead (rest : List HostOp) (ts : List Agent) (s : State) : State :=
  { startCommand (encode .getpix) s with
    pixdata := getpixWord (sext16 (lowHalf s.arg0)) (sext16 (highHalf s.arg0)) s
    eng := .idle, busy := false
    reads := s.reads ++ [getpixWord (sext16 (lowHalf s.arg0)) (sext16 (highHalf s.arg0)) s]
    program := rest, pending := none, turns := ts }

/-- From an accepted `CMD` write of `GETPIX` with `RD PIXDATA` due, the read is held for `k` host turns
and completes after the engine's (R60). -/
theorem run_started_getpix_rdPixdata (k : Nat) (hl : s.cfg.legal = true)
    (hdue : AccessDue (rdPixdata s.cfg) rest s)
    (ht : s.turns = List.replicate k .host ++ .engine :: .host :: ts) :
    Host.Core.run Sys2Proof.core (k + 2) (startCommand (encode .getpix) s) =
      .next (getpixRead rest ts s) := by
  obtain ⟨p, q, hwait, hdue'⟩ := AccessDue.run_of_busy k (.engine :: .host :: ts)
    (s := startCommand (encode .getpix) s) hdue hl rfl (inWindow_reg ..) (neverHeld_rdPixdata _) ht
  exact (coreRun_add_next ..).2 ⟨_, hwait, run_getpix_rdPixdata hl rfl (exec_started rfl _) hdue' rfl⟩

end

/-- Settles O59: the two writes start `GETPIX`; the read is due then and stays due for `k` host turns;
the engine's turn ends the command, and the host's next turn completes the read. -/
theorem getpixExpansionReadsItsResult : Obligations.GetpixExpansionReadsItsResult := by
  intro s x y k rest ts hx hx' hy hy' hl hb hp hr ht
  have hstart := run_wrArg0 (rest := .access (rdPixdata s.cfg) :: rest)
    (ts := List.replicate k .host ++ .engine :: .host :: ts) hl hb hp hr (by simp [ht])
  have hrun : Host.Core.run Sys2Proof.core (2 + (k + 2)) s =
      .next (getpixRead rest ts { s with arg0 := packPoint x y }) :=
    (coreRun_add_next ..).2 ⟨_, hstart, run_started_getpix_rdPixdata k hl (.inl ⟨hp, rfl⟩) rfl⟩
  obtain ⟨hpx, hpy⟩ := packedOperandsReadBack.1 x y hx hx' hy hy'
  rw [show k + 4 = 2 + (k + 2) by omega]
  refine ⟨_, hrun, ?_, ?_⟩
  · simp only [getpixRead, hpx, hpy]
    rfl
  · simp [getpixRead, startCommand, hb, hp]

end Sys2Proof.Machine

/-! ## Proofs: the framebuffer commands

The statements of the family `40_framebuffer`. `CLEAR` is read off `clearCells_read` and the frame of
`execClear_frame`. A `SETPIX` is the drawing command of one point, so its counters, cells and frame are
those of `DrawsExactly` at a list of one; a `GETPIX` is `getpixWord`, by whether the point is in range. -/

namespace Sys2Proof.Machine

/-! ### The opcodes that only end the command -/

/-- The opcode map's row for an `OP` value gives the encoding of its command (R80, R86). -/
theorem selectedBy_of_decodeOp {op : BitVec 4} {command : Nat → Instr}
    (h : ∀ color : BitVec 8, decodeOp op color = command color.toNat) : SelectedBy op command := by
  intro w hw
  rw [decode, hw, h]

/-- Settles O11: the opcode map has the eight rows, and each of the four meanings is `finish`. -/
theorem nopAndReservedOnlyEnd : Obligations.NopAndReservedOnlyEnd := by
  refine ⟨?nop, ?op9, ?opA, ?opB, ?opC, ?opD, ?opE, ?opF, fun _ _ => ⟨rfl, rfl, rfl, rfl⟩⟩
  all_goals exact selectedBy_of_decodeOp fun _ => rfl

/-! ### `CLEAR` -/

/-- A cell of the grid in a state whose buffer has been cleared (R113, R212). -/
theorem cell_of_cleared {s t : State} (hcfg : t.cfg = s.cfg) (hfb : t.fb = (clearCells s).fb)
    (hw : s.fb.wf = true) {x y : Int} (hr : inRange s.cfg x y = true) : t.cell x y = Color.off := by
  rw [State.cell, hcfg, hfb, clearCells_read s hw, if_pos (cellIndex_lt hr)]

/-- Settles O12: the cells by `cell_of_cleared`, the rest by the frame of `CLEAR`. -/
theorem clearTurnsEveryCellOff : Obligations.ClearTurnsEveryCellOff := by
  refine ⟨selectedBy_of_decodeOp fun _ => rfl, fun s => ⟨_, execClear_frame s, ?_, rfl⟩⟩
  intro hw x y hr
  exact cell_of_cleared (s := s) (by rfl) (by rfl) hw hr

/-- Above every listed index each cell is OFF (log 2). -/
theorem Memory.read_above {n a : Nat} {m : Memory} (h : ∀ p ∈ m, p.1 < n) (ha : n ≤ a) :
    m.read a = Color.off := by
  induction m with
  | nil => rfl
  | cons p m ih =>
    obtain ⟨hp, hm⟩ := List.forall_mem_cons.1 h
    rw [Memory.read_cons, if_neg (by omega), ih hm]

/-- A canonical buffer of cells of the grid is the empty list once cleared: it reads OFF everywhere
(R113; log 2, log 14). -/
theorem clearCells_fb_eq_nil {s : State} (hw : s.fb.wf = true) (hg : ∀ p ∈ s.fb, p.1 < s.cfg.cells) :
    (clearCells s).fb = [] := by
  refine Memory.ext_of_read (clearCells_wf s hw) (Memory.wfFrom_nil 0) fun a => ?_
  rw [clearCells_read s hw, Memory.read_nil]
  split
  · rfl
  · exact Memory.read_above hg (by omega)

/-- Settles O13: `CLEAR` leaves the cleared buffer. -/
theorem clearEmptiesCanonicalBuffer : Obligations.ClearEmptiesCanonicalBuffer :=
  fun s hw hg => ⟨_, execClear_frame s, clearCells_fb_eq_nil hw hg⟩

/-! ### `Plot` and `SETPIX` -/

/-- Membership in a sequence of one point. -/
theorem point_mem_singleton_iff {x y x' y' : Int} :
    ({ x := x', y := y' } : Point) ∈ [{ x := x, y := y }] ↔ x' = x ∧ y' = y := by
  rw [List.mem_singleton, Point.mk.injEq]

/-- An out-of-range plot is counted and dropped (R111). -/
theorem plot_of_not_inRange {x y : Int} {s : State} (h : inRange s.cfg x y = false) (c : Color) :
    plot x y c s = { s with plotcnt := s.plotcnt + 1 } := by
  simp [plot, h]

/-- The frame of an in-range plot: `fb` and both counters (R111). -/
theorem plot_frame_of_inRange {x y : Int} {s : State} (h : inRange s.cfg x y = true) (c : Color) :
    plot x y c s =
      { s with plotcnt := s.plotcnt + 1, wrcnt := s.wrcnt + 1, fb := (plot x y c s).fb } := by
  simp [plot, h]

/-- A cell of the grid after one plot: a sequence of plots of length one (R111). -/
theorem plot_cell (x y : Int) (c : Color) {s : State} (hw : s.fb.wf = true) {x' y' : Int}
    (hr : inRange s.cfg x' y' = true) :
    (plot x y c s).cell x' y' = if x' = x ∧ y' = y then c else s.cell x' y' :=
  (plotAll_cell c [{ x := x, y := y }] s hw hr).trans
    (if_congr point_mem_singleton_iff rfl rfl)

/-- Settles O14: `Plot` out of range, and its frame and cells in range. -/
theorem plotIsBoundsChecked : Obligations.PlotIsBoundsChecked :=
  fun x y c _ => ⟨inRange_iff, fun h => plot_of_not_inRange h c, fun h =>
    ⟨plot_frame_of_inRange h c, fun hw _ _ hr => plot_cell x y c hw hr⟩⟩

/-- The in-range plots of a sequence of one point (R110). -/
theorem countInRange_singleton (cfg : Config) (p : Point) :
    countInRange cfg [p] = if inRange cfg p.x p.y then 1 else 0 := by
  simp [countInRange, List.countP_cons]

/-- A cell of the grid after a `SETPIX` (R114). -/
theorem execSetpix_cell {s t : State} {color : Nat} (h : execSetpix color s = .next t)
    (hw : s.fb.wf = true) {x y : Int} (hr : inRange s.cfg x y = true) :
    t.cell x y = if x = pointX s ∧ y = pointY s then maskColor color else s.cell x y := by
  obtain ⟨u, hu, d⟩ := execSetpix_draws color s
  cases hu.symm.trans h
  exact (d.cell hw hr).trans (if_congr point_mem_singleton_iff rfl rfl)

/-- A `SETPIX` out of range leaves `fb` (R111, R114). -/
theorem execSetpix_fb_of_not_inRange {s t : State} {color : Nat} (h : execSetpix color s = .next t)
    (hr : inRange s.cfg (pointX s) (pointY s) = false) : t.fb = s.fb := by
  cases h
  simp [hr]

/-- Settles O15: the drawing command whose sequence is the one latched point. -/
theorem setpixWritesMaskedColour : Obligations.SetpixWritesMaskedColour := by
  refine ⟨selectedBy_of_decodeOp fun _ => rfl, fun s color => ?_⟩
  obtain ⟨t, h, d⟩ := execSetpix_draws color s
  have hwrcnt : t.wrcnt = if inRange s.cfg (pointX s) (pointY s) then 1 else 0 := by
    rw [d.wrcnt, countInRange_singleton]
    split <;> rfl
  exact ⟨t, h, d.plotcnt, hwrcnt, execSetpix_fb_of_not_inRange h,
    fun hw _ _ hr => execSetpix_cell h hw hr, d.frame⟩

/-! ### `GETPIX` -/

/-- The two fields of a colour in `PIXDATA` (R29). -/
theorem pixdataOfCell_fields (c : Color) :
    pcolorOf (pixdataOfCell c) = c ∧ oorOf (pixdataOfCell c) = false := by
  revert c
  decide

/-- The two fields of the sentinel (R29). -/
theorem pixdataSentinel_fields : pcolorOf pixdataSentinel = 0 ∧ oorOf pixdataSentinel = true := by
  decide

/-- `GETPIX` in range reads the cell (R115). -/
theorem getpixWord_of_inRange {x y : Int} {s : State} (h : inRange s.cfg x y = true) :
    getpixWord x y s = pixdataOfCell (s.cell x y) := if_pos h

/-- `GETPIX` out of range reads the sentinel, whatever `fb` holds (R115). -/
theorem getpixWord_of_not_inRange {x y : Int} {s : State} (h : inRange s.cfg x y = false) :
    getpixWord x y s = pixdataSentinel := if_neg (ne_true_of_eq_false h)

/-- Settles O16: `PIXDATA` becomes `getpixWord`, the cell or the sentinel. -/
theorem getpixReadsCellOrSentinel : Obligations.GetpixReadsCellOrSentinel := by
  refine ⟨selectedBy_of_decodeOp fun _ => rfl, fun s =>
    ⟨getpixWord (pointX s) (pointY s) s, rfl, fun hr => ?_, fun hr => ?_⟩⟩
  · rw [getpixWord_of_inRange hr]
    exact ⟨rfl, pixdataOfCell_fields _⟩
  · rw [getpixWord_of_not_inRange hr]
    exact ⟨rfl, pixdataSentinel_fields⟩

/-- Settles O17: `SETPIX` keeps the parameters and the latch, so `GETPIX` reads the cell written. -/
theorem setThenGetGivesMaskedColour : Obligations.SetThenGetGivesMaskedColour := by
  intro s t color hw hr h
  refine ⟨_, rfl, ?_⟩
  have hcell : t.cell (pointX s) (pointY s) = maskColor color := by
    rw [execSetpix_cell h hw hr, if_pos ⟨rfl, rfl⟩]
  obtain ⟨hcfg, hlatch⟩ : t.cfg = s.cfg ∧ t.latch = s.latch := by cases h; exact ⟨rfl, rfl⟩
  have hx : pointX t = pointX s := by rw [pointX, hlatch, ← pointX]
  have hy : pointY t = pointY s := by rw [pointY, hlatch, ← pointY]
  rw [finish_pixdata, setPixdata_pixdata, hx, hy, getpixWord_of_inRange (hcfg ▸ hr), hcell]
  rfl

end Sys2Proof.Machine

/-! ## Proofs: the scan-conversion commands

The statements of the family `41_raster`. Each command draws its plot sequence (`execLine_draws` and
the like), so its counters, cells and frame are those of `DrawsExactly`; what is proved here is about the
sequences. A circle's loop ends because `x - y` falls in every iteration. A line is followed along its
major axis (`OnMajorX`): bounds on `err` make every update move along that axis and bring the line to
its endpoint; a line along the other axis is that line with the axes exchanged (`LineVars.swap`). -/

namespace Sys2Proof.Machine

/-! ### The counters of a drawing command -/

namespace DrawsExactly

variable {c : Color} {ps : List Point} {s t : State}

/-- `PLOTCNT` is the number of plots when there are fewer than 2^32 of them (R30). -/
theorem plotcnt_toNat (h : DrawsExactly c ps s t) (hlen : ps.length < 2 ^ 32) :
    t.plotcnt.toNat = ps.length := by
  rw [h.plotcnt, BitVec.toNat_ofNat, Nat.mod_eq_of_lt hlen]

/-- `WRCNT` is then the number of plots in range (R31). -/
theorem wrcnt_toNat (h : DrawsExactly c ps s t) (hlen : ps.length < 2 ^ 32) :
    t.wrcnt.toNat = countInRange s.cfg ps := by
  rw [h.wrcnt, BitVec.toNat_ofNat, Nat.mod_eq_of_lt ((countInRange_le ..).trans_lt hlen)]

/-- The cells when the points of the sequence are known by a predicate: those of the predicate take
the colour, every other one stays (R111). -/
theorem cell_of_mem_iff (h : DrawsExactly c ps s t) {drawn : Point → Prop}
    (hps : ∀ p, p ∈ ps ↔ drawn p) (hw : s.fb.wf = true) {x y : Int} (hr : inRange s.cfg x y = true) :
    (drawn { x := x, y := y } → t.cell x y = c) ∧
      (¬ drawn { x := x, y := y } → t.cell x y = s.cell x y) := by
  rw [h.cell hw hr]
  exact ⟨fun hd => if_pos ((hps _).2 hd), fun hd => if_neg fun hm => hd ((hps _).1 hm)⟩

/-- A command without plots leaves `fb` (R116). -/
theorem of_nil (h : DrawsExactly c [] s t) : t.plotcnt = 0 ∧ t.wrcnt = 0 ∧ t.fb = s.fb := by
  obtain ⟨w, rfl⟩ := h
  exact ⟨rfl, rfl, rfl⟩

end DrawsExactly

theorem countInRange_append (cfg : Config) (ps qs : List Point) :
    countInRange cfg (ps ++ qs) = countInRange cfg ps + countInRange cfg qs :=
  List.countP_append

/-! ### `CIRCLE`: the symmetric points -/

/-- The distances of a symmetric point from the centre are those of the point it comes from, perhaps
exchanged (R150). -/
theorem octant_natAbs (x0 y0 dx dy : Int) (k : Nat) :
    (((octant x0 y0 dx dy k).x - x0).natAbs = dx.natAbs ∧
        ((octant x0 y0 dx dy k).y - y0).natAbs = dy.natAbs) ∨
      (((octant x0 y0 dx dy k).x - x0).natAbs = dy.natAbs ∧
        ((octant x0 y0 dx dy k).y - y0).natAbs = dx.natAbs) := by
  unfold octant
  split <;> dsimp only <;> omega

/-- The eight points of one iteration in the order of R150. -/
theorem octantPlots_eq (x0 y0 : Int) (v : CircleVars) :
    octantPlots x0 y0 v =
      [⟨x0 + v.x, y0 + v.y⟩, ⟨x0 - v.x, y0 + v.y⟩, ⟨x0 + v.x, y0 - v.y⟩, ⟨x0 - v.x, y0 - v.y⟩,
        ⟨x0 + v.y, y0 + v.x⟩, ⟨x0 - v.y, y0 + v.x⟩, ⟨x0 + v.y, y0 - v.x⟩, ⟨x0 - v.y, y0 - v.x⟩] := rfl

/-- The points of one iteration, by their distances from the centre along the two axes (R150). -/
theorem mem_octantPlots_iff {x0 y0 : Int} {v : CircleVars} {p : Point} :
    p ∈ octantPlots x0 y0 v ↔
      ((p.x - x0).natAbs = v.x.natAbs ∧ (p.y - y0).natAbs = v.y.natAbs) ∨
        ((p.x - x0).natAbs = v.y.natAbs ∧ (p.y - y0).natAbs = v.x.natAbs) := by
  have habs : ∀ a a0 d : Int, (a - a0).natAbs = d.natAbs ↔ a = a0 + d ∨ a = a0 - d := by omega
  obtain ⟨px, py⟩ := p
  simp only [octantPlots_eq, List.mem_cons, List.not_mem_nil, or_false, Point.mk.injEq, habs,
    and_or_left]
  simp only [or_and_right, or_assoc]

/-- Settles O28: the symmetric points of a plotted point have the distances of the same iteration. -/
theorem circleIsEightWaySymmetric : Obligations.CircleIsEightWaySymmetric := by
  intro x0 y0 dx dy r hp k _
  obtain ⟨v, hv, hpv⟩ := List.mem_flatMap.1 hp
  refine List.mem_flatMap.2 ⟨v, hv, mem_octantPlots_iff.2 ?_⟩
  have hdist := mem_octantPlots_iff.1 hpv
  simp only [add_sub_cancel_left] at hdist
  rcases octant_natAbs x0 y0 dx dy k with ⟨hx, hy⟩ | ⟨hx, hy⟩
  · rw [hx, hy]
    exact hdist
  · rw [hx, hy]
    exact hdist.symm.imp And.symm And.symm

/-! ### `CIRCLE`: the iterations -/

/-- Settles O29, by running the iterations. -/
theorem circleIterationCounts : Obligations.CircleIterationCounts := by
  unfold Obligations.CircleIterationCounts
  simp [circleCount, circleIterations, circleStart, circleStates, circleStep, List.range_succ]

/-- An update moves one row on and at most one column in (R150). -/
theorem circleStep_moves (v : CircleVars) :
    (circleStep v).y = v.y + 1 ∧ ((circleStep v).x = v.x ∨ (circleStep v).x = v.x - 1) := by
  simp only [circleStep]
  split <;> simp

/-- The iterations from `v` on when the loop's test holds (R150). -/
theorem circleStates_of_le {v : CircleVars} (h : v.y ≤ v.x) (n : Nat) :
    circleStates (n + 1) v = v :: circleStates n (circleStep v) := if_pos h

/-- No iteration when the test fails, whatever the bound. -/
theorem circleStates_of_lt {v : CircleVars} (h : v.x < v.y) (n : Nat) : circleStates n v = [] := by
  cases n with
  | zero => rfl
  | succ n => exact if_neg (by omega)

/-- No update when the test fails, whatever the bound. -/
theorem circleLoop_of_lt {s : State} (h : s.work.circle.x < s.work.circle.y) (x0 y0 : Int) (c : Color)
    (n : Nat) : circleLoop x0 y0 c n s = s := by
  cases n with
  | zero => rfl
  | succ n => exact if_neg (by omega)

/-- Every iteration passes the test (R150). -/
theorem le_of_mem_circleStates {n : Nat} {v u : CircleVars} (h : u ∈ circleStates n v) :
    u.y ≤ u.x := by
  induction n generalizing v with
  | zero => cases h
  | succ n ih =>
    rcases le_or_gt v.y v.x with hv | hv
    · rw [circleStates_of_le hv] at h
      rcases List.mem_cons.1 h with rfl | h
      · exact hv
      · exact ih h
    · rw [circleStates_of_lt hv] at h
      cases h

/-- The first iteration, if there is one, is the one of `v`. -/
theorem eq_of_mem_head?_circleStates {n : Nat} {v u : CircleVars} (h : u ∈ (circleStates n v).head?) :
    u = v := by
  rcases le_or_gt v.y v.x with hv | hv
  · cases n with
    | zero => cases h
    | succ n =>
      rw [circleStates_of_le hv] at h
      exact (Option.some.inj h).symm
  · rw [circleStates_of_lt hv] at h
    cases h

/-- Each iteration works on what the one before has left (R150). -/
theorem circleStates_isChain (n : Nat) (v : CircleVars) :
    (circleStates n v).IsChain fun u w => w = circleStep u := by
  induction n generalizing v with
  | zero => exact .nil
  | succ n ih =>
    rcases le_or_gt v.y v.x with hv | hv
    · rw [circleStates_of_le hv]
      exact (ih (circleStep v)).cons fun w hw => eq_of_mem_head?_circleStates hw
    · rw [circleStates_of_lt hv]
      exact .nil

/-- With `x - y + 1` below the bound the loop ends by its test: after the last iteration the test
fails (R152, log 15). -/
theorem circleStep_lt_of_getLast? {n : Nat} {v u : CircleVars} (hn : v.x - v.y + 1 < n)
    (h : (circleStates n v).getLast? = some u) : (circleStep u).x < (circleStep u).y := by
  induction n generalizing v with
  | zero => cases h
  | succ n ih =>
    rcases le_or_gt v.y v.x with hv | hv
    · have hmoves := circleStep_moves v
      have hn' : (circleStep v).x - (circleStep v).y + 1 < n := by omega
      rw [circleStates_of_le hv] at h
      rcases le_or_gt (circleStep v).y (circleStep v).x with hs | hs
      · obtain ⟨n, rfl⟩ := Nat.exists_eq_add_one.2 (by omega : 0 < n)
        rw [circleStates_of_le hs, List.getLast?_cons_cons, ← circleStates_of_le hs] at h
        exact ih hn' h
      · rw [circleStates_of_lt hs] at h
        obtain rfl : v = u := Option.some.inj h
        exact hs
    · rw [circleStates_of_lt hv] at h
      cases h

/-- From `(r, 0)` the test first fails within the model's bound (log 15). -/
theorem circleStart_lt_bound (r : Nat) :
    (circleStart r).x - (circleStart r).y + 1 < ((r + 2 : Nat) : Int) := by
  simp only [circleStart]
  omega

/-- Settles O30: the moves of an iteration, and the test that ends the loop. -/
theorem circleArcHasNoGap : Obligations.CircleArcHasNoGap := by
  refine fun r => ⟨?start, fun k v w hv hw => ?next, fun v hv => ?last⟩
  case start =>
    rw [circleIterations, circleStates_of_le (Int.natCast_nonneg r), List.head?_cons]
  case next =>
    obtain ⟨hk, rfl⟩ := List.getElem?_eq_some_iff.1 hv
    obtain ⟨hk', rfl⟩ := List.getElem?_eq_some_iff.1 hw
    have hstep := List.isChain_iff_getElem.1 (circleStates_isChain (r + 2) (circleStart r)) k hk'
    have hle := le_of_mem_circleStates (List.getElem_mem hk')
    obtain ⟨hy, hx⟩ := circleStep_moves (circleIterations r)[k]
    exact ⟨hstep ▸ hy, hstep ▸ hx, hle⟩
  case last =>
    have hle := le_of_mem_circleStates (List.mem_of_getLast? hv)
    have hend := circleStep_lt_of_getLast? (circleStart_lt_bound r) hv
    have hmoves := circleStep_moves v
    omega

/-- A larger bound makes no further iteration (R152, log 15). -/
theorem circleStates_of_bound_le {m n : Nat} {v : CircleVars} (hm : v.x - v.y + 1 < m) (hmn : m ≤ n) :
    circleStates n v = circleStates m v := by
  induction m generalizing n v with
  | zero => exact circleStates_of_lt (by omega) n
  | succ m ih =>
    obtain ⟨n, rfl⟩ := Nat.exists_eq_add_one.2 (by omega : 0 < n)
    have hmoves := circleStep_moves v
    rw [circleStates, circleStates, ih (by omega) (by omega)]

/-- A larger bound changes nothing of what the machine's loop leaves (R152, log 15). -/
theorem circleLoop_of_bound_le {m n : Nat} {s : State} (hm : s.work.circle.x - s.work.circle.y + 1 < m)
    (hmn : m ≤ n) (x0 y0 : Int) (c : Color) : circleLoop x0 y0 c n s = circleLoop x0 y0 c m s := by
  induction m generalizing n s with
  | zero => exact circleLoop_of_lt (by omega) x0 y0 c n
  | succ m ih =>
    obtain ⟨n, rfl⟩ := Nat.exists_eq_add_one.2 (by omega : 0 < n)
    have hmoves := circleStep_moves s.work.circle
    rw [circleLoop, circleLoop, ih (by simp only [setCircle_work]; omega) (by omega)]

/-! ### `CIRCLE`: the command -/

/-- At radius 0 all eight points fall on the centre (R151). -/
theorem circlePlots_zero (x0 y0 : Int) :
    circlePlots x0 y0 0 = List.replicate 8 { x := x0, y := y0 } := by
  have hone : circleIterations 0 = [circleStart 0] := rfl
  rw [circlePlots, hone, List.flatMap_singleton, List.eq_replicate_iff]
  refine ⟨rfl, fun p hp => ?_⟩
  obtain ⟨px, py⟩ := p
  have hdist := mem_octantPlots_iff.1 hp
  simp only [circleStart] at hdist
  rw [Point.mk.injEq]
  omega

/-- Settles O27: the drawing command of the midpoint sequence, eight plots an iteration. -/
theorem circleDrawsMidpointCircle : Obligations.CircleDrawsMidpointCircle := by
  refine ⟨selectedBy_of_decodeOp fun _ => rfl, fun s color => ?_⟩
  obtain ⟨t, h, d⟩ := execCircle_draws color s
  have hlen : (circlePlots (pointX s) (pointY s) (radius s)).length < 2 ^ 32 := by
    have hr : radius s ≤ 65535 := zext16_le _
    have hcount := circleCount_le (radius s)
    rw [circlePlots_length]
    omega
  have hzero : radius s = 0 → t.plotcnt = 8 ∧
      t.wrcnt = if inRange s.cfg (pointX s) (pointY s) then 8 else 0 := by
    intro hr
    rw [hr, circlePlots_zero] at d
    refine ⟨d.plotcnt, ?_⟩
    rw [d.wrcnt, countInRange, List.countP_replicate]
    split <;> rfl
  exact ⟨t, h, (d.plotcnt_toNat hlen).trans (circlePlots_length ..), d.wrcnt_toNat hlen, hzero,
    fun hw _ _ hr => d.cell hw hr, d.frame⟩

/-! ### `FILLRECT` -/

theorem spanInGrid_zero (side : Nat) (x : Int) : spanInGrid side x 0 = 0 := by
  unfold spanInGrid
  omega

/-- One index more in a span counts if it lies in the side (R145). -/
theorem spanInGrid_succ (side : Nat) (x : Int) (n : Nat) :
    spanInGrid side x (n + 1) =
      spanInGrid side x n + if 0 ≤ x + n ∧ x + n < side then 1 else 0 := by
  unfold spanInGrid
  split <;> omega

/-- A row grows at its end (R145). -/
theorem fillRow_succ (x y : Int) (w : Nat) :
    fillRow x y (w + 1) = fillRow x y w ++ [{ x := x + w, y := y }] := by
  simp [fillRow, List.range_succ]

/-- A fill grows by its last row (R145). -/
theorem fillPlots_succ (x y : Int) (w h : Nat) :
    fillPlots x y w (h + 1) = fillPlots x y w h ++ fillRow x (y + h) w := by
  simp [fillPlots, List.range_succ]

/-- A row of the grid has the columns of its span in range, any other row none (R145). -/
theorem countInRange_fillRow (cfg : Config) (x y : Int) (w : Nat) :
    countInRange cfg (fillRow x y w) =
      spanInGrid cfg.fbW x w * if 0 ≤ y ∧ y < cfg.fbH then 1 else 0 := by
  induction w with
  | zero =>
    rw [spanInGrid_zero, Nat.zero_mul]
    rfl
  | succ w ih =>
    rw [fillRow_succ, countInRange_append, ih, countInRange_singleton, spanInGrid_succ, Nat.add_mul,
      ite_zero_mul_ite_zero, Nat.mul_one]
    simp only [inRange_iff, and_assoc]

/-- The in-range plots of a fill: its span clipped in both dimensions (R145). -/
theorem countInRange_fillPlots (cfg : Config) (x y : Int) (w h : Nat) :
    countInRange cfg (fillPlots x y w h) = spanInGrid cfg.fbW x w * spanInGrid cfg.fbH y h := by
  induction h with
  | zero =>
    rw [spanInGrid_zero, Nat.mul_zero]
    rfl
  | succ h ih =>
    rw [fillPlots_succ, countInRange_append, ih, countInRange_fillRow, spanInGrid_succ, Nat.mul_add]

/-- A fill plots the cells of its span (R145). -/
theorem mem_fillPlots_iff {x y : Int} {w h : Nat} {p : Point} :
    p ∈ fillPlots x y w h ↔ inSpan x y w h p := by
  obtain ⟨px, py⟩ := p
  simp only [fillPlots, fillRow, List.mem_flatMap, List.mem_map, List.mem_range, Point.mk.injEq, inSpan]
  constructor
  · rintro ⟨j, hj, i, hi, hx, hy⟩
    omega
  · rintro ⟨hx, hxw, hy, hyh⟩
    exact ⟨(py - y).toNat, by omega, (px - x).toNat, by omega, by omega, by omega⟩

/-- Settles O26: the drawing command of the row-major sequence. -/
theorem fillrectFillsClippedSpan : Obligations.FillrectFillsClippedSpan := by
  refine ⟨selectedBy_of_decodeOp fun _ => rfl, fun s color => ?_⟩
  obtain ⟨t, h, d⟩ := execFillrect_draws color s
  have hlen : (fillPlots (pointX s) (pointY s) (sizeW s) (sizeH s)).length < 2 ^ 32 := by
    have hwh : sizeW s * sizeH s ≤ 65535 * 65535 := Nat.mul_le_mul (zext16_le _) (zext16_le _)
    rw [fillPlots_length]
    omega
  exact ⟨t, h, (d.plotcnt_toNat hlen).trans (fillPlots_length ..),
    (d.wrcnt_toNat hlen).trans (countInRange_fillPlots ..),
    fun hw _ _ hr => d.cell_of_mem_iff (fun _ => mem_fillPlots_iff) hw hr, d.frame⟩

/-! ### The stepping of a line -/

/-- The working variables of a line after `k` updates (R130). -/
def lineAt (x0 y0 x1 y1 : Int) (k : Nat) : LineVars := lineStep^[k] (lineStart x0 y0 x1 y1)

theorem lineAt_zero (x0 y0 x1 y1 : Int) : lineAt x0 y0 x1 y1 0 = lineStart x0 y0 x1 y1 := rfl

theorem lineAt_succ (x0 y0 x1 y1 : Int) (k : Nat) :
    lineAt x0 y0 x1 y1 (k + 1) = lineStep (lineAt x0 y0 x1 y1 k) :=
  Function.iterate_succ_apply' ..

/-- The test of R130: the line stands at its endpoint. -/
def LineVars.arrived (x1 y1 : Int) (v : LineVars) : Prop := v.x = x1 ∧ v.y = y1

section
variable {x1 y1 : Int} {v : LineVars}

theorem linePath_of_arrived (h : v.arrived x1 y1) (n : Nat) : linePath x1 y1 (n + 1) v = [v.point] :=
  congrArg (v.point :: ·) (if_pos h)

theorem linePath_of_not_arrived (h : ¬ v.arrived x1 y1) (n : Nat) :
    linePath x1 y1 (n + 1) v = v.point :: linePath x1 y1 n (lineStep v) :=
  congrArg (v.point :: ·) (if_neg h)

theorem lineLoop_of_arrived {s : State} (h : s.work.line.arrived x1 y1) (c : Color) (n : Nat) :
    lineLoop x1 y1 c (n + 1) s = plot s.work.line.x s.work.line.y c s := if_pos h

theorem lineLoop_of_not_arrived {s : State} (h : ¬ s.work.line.arrived x1 y1) (c : Color) (n : Nat) :
    lineLoop x1 y1 c (n + 1) s =
      lineLoop x1 y1 c n ((plot s.work.line.x s.work.line.y c s).setLine (lineStep s.work.line)) :=
  if_neg h

/-- A path that first arrives after `m` updates is the points up to there, under any larger bound. -/
theorem linePath_of_arrives {m n : Nat} (hbefore : ∀ k < m, ¬ (lineStep^[k] v).arrived x1 y1)
    (hend : (lineStep^[m] v).arrived x1 y1) (hmn : m < n) :
    linePath x1 y1 n v = (List.range (m + 1)).map fun k => (lineStep^[k] v).point := by
  obtain ⟨n, rfl⟩ := Nat.exists_eq_add_one.2 (Nat.zero_lt_of_lt hmn)
  induction m generalizing n v with
  | zero => exact linePath_of_arrived hend n
  | succ m ih =>
    obtain ⟨n, rfl⟩ := Nat.exists_eq_add_one.2 (Nat.zero_lt_of_lt (Nat.lt_of_succ_lt_succ hmn))
    have hnow : ¬ v.arrived x1 y1 := hbefore 0 (Nat.succ_pos m)
    rw [linePath_of_not_arrived hnow,
      ih (fun k hk => hbefore (k + 1) (Nat.succ_lt_succ hk)) hend n (Nat.lt_of_succ_lt_succ hmn),
      List.range_succ_eq_map (n := m + 1), List.map_cons, List.map_map]
    rfl

/-- A loop that arrives below the bound `m` leaves the same state under any larger bound. -/
theorem lineLoop_of_arrives {k m n : Nat} {s : State}
    (hend : (lineStep^[k] s.work.line).arrived x1 y1) (hkm : k < m) (hmn : m ≤ n) (c : Color) :
    lineLoop x1 y1 c n s = lineLoop x1 y1 c m s := by
  induction m generalizing k n s with
  | zero => exact absurd hkm (Nat.not_lt_zero k)
  | succ m ih =>
    obtain ⟨n, rfl⟩ := Nat.exists_eq_add_one.2 (Nat.zero_lt_of_lt hmn)
    by_cases hnow : s.work.line.arrived x1 y1
    · rw [lineLoop_of_arrived hnow, lineLoop_of_arrived hnow]
    · rw [lineLoop_of_not_arrived hnow, lineLoop_of_not_arrived hnow]
      cases k with
      | zero => exact absurd hend hnow
      | succ k => exact ih hend (Nat.lt_of_succ_lt_succ hkm) (Nat.le_of_succ_le_succ hmn)

end

/-! ### The two axes exchanged -/

/-- The working variables with the axes exchanged; `err` is a difference, so its sign turns. -/
def LineVars.swap (v : LineVars) : LineVars :=
  { x := v.y, y := v.x, dx := v.dy, dy := v.dx, sx := v.sy, sy := v.sx, err := -v.err }

theorem lineStart_swap (x0 y0 x1 y1 : Int) :
    (lineStart x0 y0 x1 y1).swap = lineStart y0 x0 y1 x1 := by
  simp [lineStart, LineVars.swap]

/-- What the updates of R130 do to `x`, `y` and `err`. -/
theorem lineStep_eq (v : LineVars) :
    lineStep v = { v with
      x := if 2 * v.err > -v.dy then v.x + v.sx else v.x
      y := if 2 * v.err < v.dx then v.y + v.sy else v.y
      err := v.err - (if 2 * v.err > -v.dy then v.dy else 0) +
        (if 2 * v.err < v.dx then v.dx else 0) } := by
  unfold lineStep
  by_cases hx : 2 * v.err > -v.dy <;> by_cases hy : 2 * v.err < v.dx <;> simp [hx, hy]

/-- The updates treat the two axes alike (R130). -/
theorem lineStep_swap (v : LineVars) : lineStep v.swap = (lineStep v).swap := by
  have hx : 2 * -v.err > -v.dx ↔ 2 * v.err < v.dx := by omega
  have hy : 2 * -v.err < v.dy ↔ 2 * v.err > -v.dy := by omega
  simp only [lineStep_eq, LineVars.swap, hx, hy, LineVars.mk.injEq, true_and]
  omega

theorem lineAt_swap (x0 y0 x1 y1 : Int) (k : Nat) :
    lineAt y0 x0 y1 x1 k = (lineAt x0 y0 x1 y1 k).swap := by
  induction k with
  | zero => exact (lineStart_swap ..).symm
  | succ k ih => rw [lineAt_succ, ih, lineStep_swap, lineAt_succ]

/-! ### The error term along the major axis -/

/-- The working variables of a line of extents `dx >= dy`, `dx > 0`, after `k` updates with `b` of them
along `y`. The bounds on `err` are what makes every update move along `x`. -/
structure OnMajorX (x0 y0 x1 y1 : Int) (k : Nat) (b : Int) (v : LineVars) : Prop where
  dx : v.dx = (x1 - x0).natAbs
  dy : v.dy = (y1 - y0).natAbs
  sx : v.sx = (x1 - x0).sign
  sy : v.sy = (y1 - y0).sign
  x : v.x = x0 + k * (x1 - x0).sign
  y : v.y = y0 + b * (y1 - y0).sign
  err : v.err = v.dx - v.dy - k * v.dy + b * v.dx
  lower : -v.dy < 2 * v.err
  upper : 2 * v.err < 3 * v.dx - 2 * v.dy
  diagonal : v.dx = v.dy → v.err = 0

section
variable {x0 y0 x1 y1 : Int}

theorem lineStart_onMajorX (hmajor : (y1 - y0).natAbs ≤ (x1 - x0).natAbs) (hpos : x0 ≠ x1) :
    OnMajorX x0 y0 x1 y1 0 0 (lineStart x0 y0 x1 y1) := by
  constructor <;> simp only [lineStart, Nat.cast_zero, zero_mul, add_zero, sub_zero] <;> omega

/-- An update moves along `x`, and along `y` if `2*err < dx`. The bounds last: a move along `y` adds
`dx - dy >= 0` to `err`; without one `2*err >= dx`, and then `dx > dy`, since `err` is 0 on a diagonal. -/
theorem OnMajorX.step {k : Nat} {b : Int} {v : LineVars}
    (hmajor : (y1 - y0).natAbs ≤ (x1 - x0).natAbs) (hpos : x0 ≠ x1) (h : OnMajorX x0 y0 x1 y1 k b v) :
    OnMajorX x0 y0 x1 y1 (k + 1) (if 2 * v.err < v.dx then b + 1 else b) (lineStep v) := by
  obtain ⟨hdx, hdy, hsx, hsy, hx, hy, herr, hlo, hhi, hdiag⟩ := h
  rw [lineStep_eq, if_pos hlo, if_pos hlo]
  split
  all_goals
    constructor
    all_goals simp only [Nat.cast_add, Nat.cast_one, add_mul, one_mul]
    all_goals omega

theorem lineAt_onMajorX (hmajor : (y1 - y0).natAbs ≤ (x1 - x0).natAbs) (hpos : x0 ≠ x1) (k : Nat) :
    ∃ b, OnMajorX x0 y0 x1 y1 k b (lineAt x0 y0 x1 y1 k) := by
  induction k with
  | zero => exact ⟨0, lineStart_onMajorX hmajor hpos⟩
  | succ k ih =>
    obtain ⟨b, h⟩ := ih
    exact ⟨_, lineAt_succ x0 y0 x1 y1 k ▸ h.step hmajor hpos⟩

/-- After `dx` updates along the major axis the line is at its endpoint: the bounds on `err` leave
`dy` moves along `y` as the only number. -/
theorem OnMajorX.arrived {b : Int} {v : LineVars} (hmajor : (y1 - y0).natAbs ≤ (x1 - x0).natAbs)
    (h : OnMajorX x0 y0 x1 y1 (x1 - x0).natAbs b v) : v.arrived x1 y1 := by
  obtain ⟨hdx, hdy, -, -, hx, hy, herr, hlo, hhi, -⟩ := h
  have herr' : v.err = v.dx * (1 + b - v.dy) - v.dy := by rw [herr, hdx]; ring
  have hge : 0 < 1 + b - v.dy := lt_of_mul_lt_mul_left (a := v.dx) (by omega) (by omega)
  have hle : 1 + b - v.dy < 2 := lt_of_mul_lt_mul_left (a := v.dx) (by omega) (by omega)
  obtain rfl : b = (y1 - y0).natAbs := by omega
  constructor
  · rw [hx, mul_comm, Int.sign_mul_natAbs, add_sub_cancel]
  · rw [hy, mul_comm, Int.sign_mul_natAbs, add_sub_cancel]

/-- An update along the major axis moves one cell along it and at most one along the other, exactly one
when the extents are equal (R132). -/
theorem OnMajorX.moves {k : Nat} {b : Int} {v : LineVars} (hpos : x0 ≠ x1)
    (h : OnMajorX x0 y0 x1 y1 k b v) :
    ((lineStep v).x - v.x).natAbs = 1 ∧ ((lineStep v).y - v.y).natAbs ≤ 1 ∧
      ((y1 - y0).natAbs = (x1 - x0).natAbs → ((lineStep v).y - v.y).natAbs = 1) := by
  obtain ⟨hdx, hdy, hsx, hsy, -, -, -, hlo, -, hdiag⟩ := h
  simp only [lineStep_eq, if_pos hlo, hsx, hsy, add_sub_cancel_left]
  refine ⟨Int.natAbs_sign_of_ne_zero (by omega), ?_, fun heq => ?_⟩
  · split
    · rw [add_sub_cancel_left, Int.natAbs_sign]
      split <;> decide
    · rw [sub_self]
      decide
  · rw [if_pos (by omega), add_sub_cancel_left]
    exact Int.natAbs_sign_of_ne_zero (by omega)

section
variable (hmajor : (y1 - y0).natAbs ≤ (x1 - x0).natAbs)
include hmajor

theorem lineAt_x_of_majorX {k : Nat} (hk : k ≤ (x1 - x0).natAbs) :
    (lineAt x0 y0 x1 y1 k).x = x0 + k * (x1 - x0).sign := by
  by_cases hpos : x0 = x1
  · obtain rfl : k = 0 := by omega
    rw [Nat.cast_zero, zero_mul, add_zero]
    rfl
  · obtain ⟨b, h⟩ := lineAt_onMajorX hmajor hpos k
    exact h.x

theorem lineAt_arrived_of_majorX : (lineAt x0 y0 x1 y1 (x1 - x0).natAbs).arrived x1 y1 := by
  by_cases hpos : x0 = x1
  · have hzero : (x1 - x0).natAbs = 0 := by omega
    rw [hzero]
    exact ⟨hpos, (by omega : y0 = y1)⟩
  · obtain ⟨b, h⟩ := lineAt_onMajorX hmajor hpos (x1 - x0).natAbs
    exact h.arrived hmajor

theorem lineAt_moves_of_majorX {k : Nat} (hk : k < (x1 - x0).natAbs) :
    ((lineAt x0 y0 x1 y1 (k + 1)).x - (lineAt x0 y0 x1 y1 k).x).natAbs = 1 ∧
      ((lineAt x0 y0 x1 y1 (k + 1)).y - (lineAt x0 y0 x1 y1 k).y).natAbs ≤ 1 ∧
      ((y1 - y0).natAbs = (x1 - x0).natAbs →
        ((lineAt x0 y0 x1 y1 (k + 1)).y - (lineAt x0 y0 x1 y1 k).y).natAbs = 1) := by
  have hpos : x0 ≠ x1 := by omega
  obtain ⟨b, h⟩ := lineAt_onMajorX hmajor hpos k
  rw [lineAt_succ]
  exact h.moves hpos

theorem lineAt_inj_of_majorX {j k : Nat} (hj : j ≤ (x1 - x0).natAbs) (hk : k ≤ (x1 - x0).natAbs)
    (h : (lineAt x0 y0 x1 y1 j).x = (lineAt x0 y0 x1 y1 k).x) : j = k := by
  rw [lineAt_x_of_majorX hmajor hj, lineAt_x_of_majorX hmajor hk] at h
  by_cases hpos : x0 = x1
  · omega
  · have hsign : (x1 - x0).sign ≠ 0 := mt Int.sign_eq_zero_iff_zero.1 (by omega)
    exact Int.ofNat_inj.1 (Int.eq_of_mul_eq_mul_right hsign (add_left_cancel h))

end
end

/-! ### Lines along either axis -/

/-- The updates of a line from its start to its endpoint: its extent along the major axis (R132). -/
def lineExtent (x0 y0 x1 y1 : Int) : Nat := max (x1 - x0).natAbs (y1 - y0).natAbs

theorem lineExtent_swap (x0 y0 x1 y1 : Int) : lineExtent y0 x0 y1 x1 = lineExtent x0 y0 x1 y1 :=
  Nat.max_comm ..

section
variable {x0 y0 x1 y1 : Int}

theorem lineExtent_of_majorX (hmajor : (y1 - y0).natAbs ≤ (x1 - x0).natAbs) :
    lineExtent x0 y0 x1 y1 = (x1 - x0).natAbs := Nat.max_eq_left hmajor

theorem lineExtent_lt_lineBound (x0 y0 x1 y1 : Int) :
    lineExtent x0 y0 x1 y1 < lineBound (lineStart x0 y0 x1 y1) := by
  simp only [lineExtent, lineBound, lineStart]
  omega

/-- A line is at its endpoint after its extent's number of updates (R132). -/
theorem lineAt_lineExtent_arrived (x0 y0 x1 y1 : Int) :
    (lineAt x0 y0 x1 y1 (lineExtent x0 y0 x1 y1)).arrived x1 y1 := by
  rcases le_total (y1 - y0).natAbs (x1 - x0).natAbs with hmajor | hmajor
  · rw [lineExtent_of_majorX hmajor]
    exact lineAt_arrived_of_majorX hmajor
  · rw [← lineExtent_swap, lineExtent_of_majorX hmajor, lineAt_swap y0 x0 y1 x1]
    exact (lineAt_arrived_of_majorX hmajor).symm

/-- Up to there a line stands at no point twice (R132). -/
theorem lineAt_point_inj {j k : Nat} (hj : j ≤ lineExtent x0 y0 x1 y1)
    (hk : k ≤ lineExtent x0 y0 x1 y1)
    (h : (lineAt x0 y0 x1 y1 j).point = (lineAt x0 y0 x1 y1 k).point) : j = k := by
  obtain ⟨hx, hy⟩ := Point.mk.inj h
  rcases le_total (y1 - y0).natAbs (x1 - x0).natAbs with hmajor | hmajor
  · rw [lineExtent_of_majorX hmajor] at hj hk
    exact lineAt_inj_of_majorX hmajor hj hk hx
  · rw [← lineExtent_swap, lineExtent_of_majorX hmajor] at hj hk
    rw [lineAt_swap y0 x0 y1 x1, lineAt_swap y0 x0 y1 x1] at hy
    exact lineAt_inj_of_majorX hmajor hj hk hy

/-- The moves of a line, along whichever axis is the major one; both are when the extents are equal
(R132). -/
theorem lineAt_moves {k : Nat} (hk : k < lineExtent x0 y0 x1 y1) {p q : Point}
    (hp : p = (lineAt x0 y0 x1 y1 k).point) (hq : q = (lineAt x0 y0 x1 y1 (k + 1)).point) :
    ((y1 - y0).natAbs ≤ (x1 - x0).natAbs → (q.x - p.x).natAbs = 1 ∧ (q.y - p.y).natAbs ≤ 1) ∧
      ((x1 - x0).natAbs ≤ (y1 - y0).natAbs → (q.y - p.y).natAbs = 1 ∧ (q.x - p.x).natAbs ≤ 1) := by
  subst hp hq
  refine ⟨fun hmajor => ?_, fun hmajor => ?_⟩
  · rw [lineExtent_of_majorX hmajor] at hk
    obtain ⟨hx, hy, -⟩ := lineAt_moves_of_majorX hmajor hk
    exact ⟨hx, hy⟩
  · rw [← lineExtent_swap, lineExtent_of_majorX hmajor] at hk
    obtain ⟨hx, hy, -⟩ := lineAt_moves_of_majorX hmajor hk
    rw [lineAt_swap x0 y0 x1 y1, lineAt_swap x0 y0 x1 y1] at hx hy
    exact ⟨hx, hy⟩

/-- The path of a line under any bound above its extent: its points up to its endpoint (R130). -/
theorem linePath_lineStart {n : Nat} (hn : lineExtent x0 y0 x1 y1 < n) :
    linePath x1 y1 n (lineStart x0 y0 x1 y1) =
      (List.range (lineExtent x0 y0 x1 y1 + 1)).map fun k => (lineAt x0 y0 x1 y1 k).point := by
  have hend := lineAt_lineExtent_arrived x0 y0 x1 y1
  refine linePath_of_arrives (fun k hk hnow => hk.ne ?_) hend hn
  refine lineAt_point_inj hk.le le_rfl ?_
  exact (congrArg₂ Point.mk hnow.1 hnow.2).trans (congrArg₂ Point.mk hend.1 hend.2).symm

/-- The plots of a line, point by point (R132). -/
theorem linePlots_eq_map (x0 y0 x1 y1 : Int) :
    linePlots x0 y0 x1 y1 =
      (List.range (lineExtent x0 y0 x1 y1 + 1)).map fun k => (lineAt x0 y0 x1 y1 k).point :=
  linePath_lineStart (lineExtent_lt_lineBound ..)

@[simp] theorem linePlots_length (x0 y0 x1 y1 : Int) :
    (linePlots x0 y0 x1 y1).length = max (x1 - x0).natAbs (y1 - y0).natAbs + 1 := by
  rw [linePlots_eq_map, List.length_map, List.length_range, lineExtent]

theorem linePlots_getElem? {k : Nat} {p : Point} (h : (linePlots x0 y0 x1 y1)[k]? = some p) :
    k ≤ lineExtent x0 y0 x1 y1 ∧ p = (lineAt x0 y0 x1 y1 k).point := by
  rw [linePlots_eq_map] at h
  obtain ⟨hk, rfl⟩ := List.getElem?_eq_some_iff.1 h
  rw [List.length_map, List.length_range] at hk
  exact ⟨Nat.le_of_lt_succ hk, by rw [List.getElem_map, List.getElem_range]⟩

theorem linePlots_head? (x0 y0 x1 y1 : Int) :
    (linePlots x0 y0 x1 y1).head? = some { x := x0, y := y0 } := by
  rw [linePlots_eq_map, List.range_succ_eq_map]
  rfl

theorem linePlots_getLast? (x0 y0 x1 y1 : Int) :
    (linePlots x0 y0 x1 y1).getLast? = some { x := x1, y := y1 } := by
  obtain ⟨hx, hy⟩ := lineAt_lineExtent_arrived x0 y0 x1 y1
  rw [linePlots_eq_map, List.range_succ, List.map_append, List.map_singleton, List.getLast?_concat]
  exact congrArg some (congrArg₂ Point.mk hx hy)

theorem linePlots_nodup (x0 y0 x1 y1 : Int) : (linePlots x0 y0 x1 y1).Nodup := by
  rw [linePlots_eq_map]
  refine List.Nodup.map_on (fun j hj k hk h => ?_) List.nodup_range
  exact lineAt_point_inj (Nat.le_of_lt_succ (List.mem_range.1 hj))
    (Nat.le_of_lt_succ (List.mem_range.1 hk)) h

end

/-! ### `LINE` -/

/-- Settles O23: the plots are `lineAt` from the start to the endpoint. -/
theorem lineSequenceIsConnected : Obligations.LineSequenceIsConnected := by
  refine ⟨fun x0 y0 x1 y1 => ⟨linePlots_length .., linePlots_head? .., linePlots_getLast? ..,
    linePlots_nodup .., fun k p q hp hq => ?_⟩, by decide +kernel, by decide +kernel⟩
  obtain ⟨-, hp⟩ := linePlots_getElem? hp
  obtain ⟨hk, hq⟩ := linePlots_getElem? hq
  exact lineAt_moves hk hp hq

/-- Settles O22: the drawing command of the line's sequence. -/
theorem lineDrawsBresenham : Obligations.LineDrawsBresenham := by
  refine ⟨selectedBy_of_decodeOp fun _ => rfl, fun s color => ?_⟩
  obtain ⟨t, h, d⟩ := execLine_draws color s
  have hlen : (linePlots (pointX s) (pointY s) (endX s) (endY s)).length < 2 ^ 32 := by
    have hx0 : -32768 ≤ pointX s ∧ pointX s ≤ 32767 := sext16_bounds _
    have hy0 : -32768 ≤ pointY s ∧ pointY s ≤ 32767 := sext16_bounds _
    have hx1 : -32768 ≤ endX s ∧ endX s ≤ 32767 := sext16_bounds _
    have hy1 : -32768 ≤ endY s ∧ endY s ≤ 32767 := sext16_bounds _
    rw [linePlots_length]
    omega
  exact ⟨t, h, (d.plotcnt_toNat hlen).trans (linePlots_length ..), d.wrcnt_toNat hlen,
    fun hw _ _ hr => d.cell hw hr, d.frame⟩

/-- Settles O24: a line arrives, and a circle's test fails, below the model's bound. -/
theorem loopsEndByTheirOwnTests : Obligations.LoopsEndByTheirOwnTests := by
  refine ⟨fun s x0 y0 x1 y1 c n hn => ⟨?_, ?_⟩, fun s x0 y0 c r n hn => ⟨?_, ?_⟩⟩
  · exact lineLoop_of_arrives (lineAt_lineExtent_arrived ..) (lineExtent_lt_lineBound ..) hn c
  · exact (linePath_lineStart ((lineExtent_lt_lineBound ..).trans_le hn)).trans
      (linePlots_eq_map ..).symm
  · exact circleLoop_of_bound_le (circleStart_lt_bound r) hn x0 y0 c
  · exact circleStates_of_bound_le (circleStart_lt_bound r) hn

/-! ### `RECT` -/

/-- A horizontal line stays in its row (R131). -/
theorem lineAt_y_of_horizontal (x0 x1 y : Int) (k : Nat) : (lineAt x0 y x1 y k).y = y := by
  have hkeep : (lineAt x0 y x1 y k).sy = 0 ∧ (lineAt x0 y x1 y k).y = y := by
    induction k with
    | zero => exact ⟨by rw [lineAt_zero, lineStart, sub_self]; rfl, rfl⟩
    | succ k ih =>
      obtain ⟨hsy, hy⟩ := ih
      rw [lineAt_succ, lineStep_eq, hsy, hy, add_zero, ite_self]
      exact ⟨rfl, rfl⟩
  exact hkeep.2

/-- Steps of one from `a` towards `b`, at most as many as lie between, reach the numbers between them. -/
theorem exists_add_mul_sign_iff {a b c : Int} :
    (∃ k ≤ (b - a).natAbs, a + k * (b - a).sign = c) ↔ min a b ≤ c ∧ c ≤ max a b := by
  have hsign : (b < a ∧ (b - a).sign = -1) ∨ (a = b ∧ (b - a).sign = 0) ∨
      (a < b ∧ (b - a).sign = 1) := by
    rcases lt_trichotomy (b - a) 0 with h | h | h
    · exact .inl ⟨by omega, Int.sign_eq_neg_one_of_neg h⟩
    · exact .inr (.inl ⟨by omega, by rw [h]; rfl⟩)
    · exact .inr (.inr ⟨by omega, Int.sign_eq_one_of_pos h⟩)
  constructor
  · rintro ⟨k, hk, rfl⟩
    rcases hsign with ⟨hab, hs⟩ | ⟨hab, hs⟩ | ⟨hab, hs⟩ <;> rw [hs] <;> omega
  · intro hc
    refine ⟨(c - a).natAbs, by omega, ?_⟩
    rcases hsign with ⟨hab, hs⟩ | ⟨hab, hs⟩ | ⟨hab, hs⟩ <;> rw [hs] <;> omega

/-- The points of a horizontal line (R131). -/
theorem mem_linePlots_horizontal {p : Point} {x0 x1 y : Int} :
    p ∈ linePlots x0 y x1 y ↔ p.y = y ∧ min x0 x1 ≤ p.x ∧ p.x ≤ max x0 x1 := by
  have hmajor : (y - y).natAbs ≤ (x1 - x0).natAbs := by omega
  obtain ⟨px, py⟩ := p
  have hpoint : ∀ k, k ≤ (x1 - x0).natAbs ∧ (lineAt x0 y x1 y k).point = { x := px, y := py } ↔
      py = y ∧ k ≤ (x1 - x0).natAbs ∧ x0 + k * (x1 - x0).sign = px := by
    intro k
    rw [LineVars.point, lineAt_y_of_horizontal, Point.mk.injEq, eq_comm (a := py),
      and_left_comm (a := y = py)]
    exact and_congr_right fun hk => by rw [lineAt_x_of_majorX hmajor hk, and_comm]
  simp only [linePlots_eq_map, List.mem_map, List.mem_range, Nat.lt_succ_iff,
    lineExtent_of_majorX hmajor, hpoint, exists_and_left, exists_add_mul_sign_iff]

/-- The points of a vertical line: those of a horizontal one with the axes exchanged (R131). -/
theorem mem_linePlots_vertical {p : Point} {x y0 y1 : Int} :
    p ∈ linePlots x y0 x y1 ↔ p.x = x ∧ min y0 y1 ≤ p.y ∧ p.y ≤ max y0 y1 := by
  obtain ⟨px, py⟩ := p
  have hswap : ({ x := px, y := py } : Point) ∈ linePlots x y0 x y1 ↔
      { x := py, y := px } ∈ linePlots y0 x y1 x := by
    simp only [linePlots_eq_map, List.mem_map, lineExtent_swap x y0 x y1, lineAt_swap x y0 x y1,
      LineVars.point, LineVars.swap, Point.mk.injEq, and_comm]
  rw [hswap, mem_linePlots_horizontal]

/-- The plots of `RECT` are the cells of the outline (R140). -/
theorem mem_rectPlots_iff {x y : Int} {w h : Nat} {p : Point} :
    p ∈ rectPlots x y w h ↔ onOutline x y w h p := by
  unfold rectPlots onOutline
  split
  · rw [List.mem_nil_iff, false_iff]
    omega
  · split
    next hthin =>
      rcases hthin with rfl | rfl
      · have hcol : x + (1 : Nat) - 1 = x := by omega
        rw [hcol, mem_linePlots_vertical]
        omega
      · have hrow : y + (1 : Nat) - 1 = y := by omega
        rw [hrow, mem_linePlots_horizontal]
        omega
    next hthick =>
      simp only [List.mem_append, mem_linePlots_horizontal, mem_linePlots_vertical]
      omega

/-- The number of plots of `RECT` (R140). -/
theorem rectPlots_length_of_thin {x y : Int} {w h : Nat} (hw : 1 ≤ w) (hh : 1 ≤ h)
    (hthin : w = 1 ∨ h = 1) : (rectPlots x y w h).length = max w h := by
  rw [rectPlots, if_neg (by omega), if_pos hthin, linePlots_length]
  omega

theorem rectPlots_length_of_thick {x y : Int} {w h : Nat} (hw : 2 ≤ w) (hh : 2 ≤ h) :
    (rectPlots x y w h).length = 2 * w + 2 * h := by
  rw [rectPlots, if_neg (by omega), if_neg (by omega)]
  simp only [List.length_append, linePlots_length]
  omega

/-- Settles O25: the drawing command of the outline's sequence. -/
theorem rectDrawsOutline : Obligations.RectDrawsOutline := by
  refine ⟨selectedBy_of_decodeOp fun _ => rfl, fun s color => ?_⟩
  obtain ⟨t, h, d⟩ := execRect_draws color s
  have hlen : (rectPlots (pointX s) (pointY s) (sizeW s) (sizeH s)).length < 2 ^ 32 := by
    have hw : sizeW s ≤ 65535 := zext16_le _
    have hh : sizeH s ≤ 65535 := zext16_le _
    have hle := rectPlots_length_le (pointX s) (pointY s) (sizeW s) (sizeH s)
    omega
  have hempty : sizeW s = 0 ∨ sizeH s = 0 → t.plotcnt = 0 ∧ t.wrcnt = 0 ∧ t.fb = s.fb := by
    intro hzero
    rw [rectPlots, if_pos hzero] at d
    exact d.of_nil
  exact ⟨t, h, hempty,
    fun hw hh hthin => (d.plotcnt_toNat hlen).trans (rectPlots_length_of_thin hw hh hthin),
    fun hw hh => (d.plotcnt_toNat hlen).trans (rectPlots_length_of_thick hw hh),
    d.wrcnt_toNat hlen, fun hw _ _ hr => d.cell_of_mem_iff (fun _ => mem_rectPlots_iff) hw hr,
    d.frame⟩

end Sys2Proof.Machine

/-! ## Proofs: `FLUSH` and the sink

The statements of the family `42_flush`. What a turn of any agent can do while a `FLUSH` runs is said
once, by `FlushTurn` and `flushTurn_of_next`: that no turn but a `RST` takes the transfers out of order
(O60), and that only a sink's turn gets a `FLUSH` past the offer it stands at (O40), are each a case split
over it. That it ends (O39) is by the turns it still needs, `flushLeft`: every turn is the next of these,
or leaves them as they are. That no step takes back a transfer or a read (O58) is `OnlyAdds`, over every
agent's turn, whatever runs. -/

namespace Sys2Proof.Machine

/-! ### The engine's step at `FLUSH` -/

section
variable {s : State}

/-- An offer stands until it is accepted (R162, R164). -/
theorem execFlush_of_offered (hv : s.snk.valid = true) : execFlush s = .next s := if_pos hv

/-- With nothing offered, the cell under the cursor is offered (R162). -/
theorem execFlush_of_lt (hv : s.snk.valid = false) (hc : s.work.cursor < s.cfg.cells) :
    execFlush s = .next (offerTransfer s) := by
  rw [execFlush, if_neg (ne_true_of_eq_false hv), if_pos hc]

/-- After the last cell the command ends (R160). -/
theorem execFlush_of_le (hv : s.snk.valid = false) (hc : s.cfg.cells ≤ s.work.cursor) :
    execFlush s = .next (finish s) := by
  rw [execFlush, if_neg (ne_true_of_eq_false hv), if_neg (Nat.not_lt.2 hc)]

end

/-- Settles O37: the opcode map's row 0x8, and the three cases of the step. -/
theorem flushOffersThenWaits : Obligations.FlushOffersThenWaits :=
  ⟨selectedBy_of_decodeOp fun _ => rfl,
    fun _ => ⟨execFlush_of_lt, execFlush_of_offered, execFlush_of_le⟩⟩

/-- Settles O35: the frame of a command but `FLUSH` holds the port and the trace. -/
theorem onlyFlushDrivesSink : Obligations.OnlyFlushDrivesSink := by
  intro i s t hi h
  obtain ⟨u, hu, hframe⟩ := exec_frame_of_ne_flush hi s
  cases hu.symm.trans h
  rw [hframe]
  exact ⟨rfl, rfl⟩

/-! ### A turn while a `FLUSH` runs -/

/-- Everything a turn of each agent can do while a `FLUSH` runs (R60, R160, R162, R213). -/
inductive FlushTurn (s : State) : Agent → State → Prop where
  /-- The host polls, waits, or has an access held or read at once: its own side only. -/
  | hosted (p : List HostOp) (o : Option Access) (rs : List Word) (hp : p.Sublist s.program) :
      FlushTurn s .host { s with program := p, pending := o, reads := rs }
  | waited (hv : s.snk.valid = true) : FlushTurn s .engine s
  | offered (hv : s.snk.valid = false) (hc : s.work.cursor < s.cfg.cells) :
      FlushTurn s .engine (offerTransfer s)
  | ended (hv : s.snk.valid = false) (hc : s.cfg.cells ≤ s.work.cursor) :
      FlushTurn s .engine (finish s)
  | accepted (hv : s.snk.valid = true) : FlushTurn s .sink { s with
      trace := s.trace ++ [s.snk.payload]
      snk := { s.snk with valid := false }
      work := { s.work with cursor := s.work.cursor + 1 } }
  /-- A sink edge with nothing offered. -/
  | unused (hv : s.snk.valid = false) : FlushTurn s .sink s
  | abandoned : FlushTurn s .reset (applyReset s)

theorem flushTurn_of_next {a : Agent} {s t : State} (hb : s.busy = true) (he : s.eng = .running)
    (ho : s.latch.op = 0x8#4) (h : agentTurn a s = .next t) : FlushTurn s a t := by
  cases a with
  | host =>
    obtain ⟨hframe, hp⟩ := hostTurn_of_busy hb h
    rw [hframe]
    exact .hosted _ _ _ hp
  | engine =>
    have h : execFlush s = .next t := engineTurn_of_flush he ho ▸ h
    rcases execFlush_cases s with ⟨hv, e⟩ | ⟨hv, hc, e⟩ | ⟨hv, hc, e⟩ <;> cases e.symm.trans h
    · exact .waited hv
    · exact .offered hv hc
    · exact .ended hv hc
  | sink =>
    cases h
    cases hv : s.snk.valid with
    | true => rw [sinkAccept, if_pos hv]; exact .accepted hv
    | false => rw [sinkAccept, if_neg (ne_true_of_eq_false hv)]; exact .unused hv
  | reset => cases h; exact .abandoned

/-- The same of a step: the next agent's turn, spent. -/
theorem flushTurn_of_step {s t : State} (hb : s.busy = true) (he : s.eng = .running)
    (ho : s.latch.op = 0x8#4) (h : step s = .next t) :
    FlushTurn (s.setTurns s.turns.tail) (nextTurn s) t :=
  flushTurn_of_next hb he ho (step_next h).2

/-! ### A `FLUSH` without a sink -/

/-- With no turn of the sink or of reset left, none comes (log 6). -/
theorem nextTurn_host_or_engine {s : State} (h : ∀ a ∈ s.turns, a = .host ∨ a = .engine) :
    nextTurn s = .host ∨ nextTurn s = .engine := by
  cases ht : s.turns with
  | nil =>
    rw [nextTurn, ht]
    exact (ite_eq_or_eq ..).symm
  | cons a ts =>
    rw [nextTurn_of_turns ht]
    exact h a (ht ▸ List.mem_cons_self)

/-- With cells left, host and engine change their own sides and the port, and nothing else (R164). -/
theorem FlushTurn.frame_of_lt {a : Agent} {s t : State} (h : FlushTurn s a t)
    (hc : s.work.cursor < s.cfg.cells) (ha : a = .host ∨ a = .engine) :
    t = { s with snk := t.snk, program := t.program, pending := t.pending, reads := t.reads } := by
  cases h with
  | hosted | waited | offered => rfl
  | ended _ hle => exact absurd hc (Nat.not_lt.2 hle)
  | accepted | unused | abandoned => simp at ha

/-- Any number of such turns does no more. -/
theorem run_flush_without_sink {n : Nat} {s t : State} (hb : s.busy = true) (he : s.eng = .running)
    (ho : s.latch.op = 0x8#4) (hc : s.work.cursor < s.cfg.cells)
    (hturns : ∀ a ∈ s.turns, a = .host ∨ a = .engine) (h : Host.Core.run Sys2Proof.core n s = .next t) :
    t = { s with
      snk := t.snk, turns := t.turns, program := t.program, pending := t.pending, reads := t.reads } := by
  induction n generalizing s with
  | zero => rw [run_zero_next.1 h]
  | succ n ih =>
    obtain ⟨u, hs, hrun⟩ := run_succ_next.1 h
    have hu := (flushTurn_of_step hb he ho hs).frame_of_lt hc (nextTurn_host_or_engine hturns)
    rw [hu] at hrun
    have hrest := ih (h := hrun)
    exact hrest hb he ho hc fun a ha => hturns a (List.mem_of_mem_tail ha)

/-- Settles O40: the engine and the host alone leave a `FLUSH` with cells left where it stands. -/
theorem flushHangsWithoutSink : Obligations.FlushHangsWithoutSink := by
  intro n s t hb he ho hc hturns h
  rw [run_flush_without_sink hb he ho hc hturns h]
  exact ⟨hb, he, rfl, rfl⟩

/-! ### The transfers of a `FLUSH` under way -/

/-- A `FLUSH` is abandoned by `RST` only (R165, R213). -/
theorem FlushTurn.reset_of_clearing {a : Agent} {s t : State} (h : FlushTurn s a t)
    (he : s.eng = .running) (ht : t.eng = .clearing) : a = .reset := by
  cases h with
  | hosted | waited | offered | accepted | unused => exact absurd (he.symm.trans ht) (by decide)
  | ended => cases ht
  | abandoned => rfl

namespace FlushUnderWay

variable {past : List Transfer} {fb : Memory} {a : Agent} {s t : State}

/-- The turns are no part of it. -/
theorem setTurns (h : FlushUnderWay past fb s) (ts : List Agent) :
    FlushUnderWay past fb (s.setTurns ts) := { h with }

/-- What is accepted is the transfer under the cursor, the next of the sequence (R160, R162). -/
theorem accepted (h : FlushUnderWay past fb s) (hv : s.snk.valid = true) :
    FlushUnderWay past fb { s with
      trace := s.trace ++ [s.snk.payload]
      snk := { s.snk with valid := false }
      work := { s.work with cursor := s.work.cursor + 1 } } := by
  obtain ⟨hc, hp⟩ := h.offered hv
  exact
    { h with
      cursor := hc
      offered := fun hf => by cases hf
      sent := by rw [hp, h.sent, List.append_assoc, ← rowMajor_take_succ _ _ hc] }

/-- A `FLUSH` that ends has sent the whole sequence (R160). -/
theorem ended (h : FlushUnderWay past fb s) (hv : s.snk.valid = false)
    (hc : s.cfg.cells ≤ s.work.cursor) : FlushOver past fb (finish s) := by
  have hall : (rowMajor s.cfg fb).take s.work.cursor = rowMajor s.cfg fb :=
    List.take_of_length_le (by rwa [rowMajor_length])
  exact ⟨hv, .inl ⟨rfl, rfl, h.contents, by rw [finish_trace, h.sent, hall, finish_cfg]⟩⟩

/-- Every turn leaves a `FLUSH` under way or ends it (R162, R165). -/
theorem turn_next (h : FlushUnderWay past fb s) (ht : FlushTurn s a t) :
    FlushUnderWay past fb t ∨ FlushOver past fb t := by
  cases ht with
  | hosted => exact .inl { h with }
  | waited | unused => exact .inl h
  | offered _ hc =>
    exact .inl { h with offered := fun _ => ⟨hc, congrArg (transferAt s.cfg · _) h.contents⟩ }
  | ended hv hc => exact .inr (h.ended hv hc)
  | accepted hv => exact .inl (h.accepted hv)
  | abandoned => exact .inr ⟨rfl, .inr ⟨rfl, s.work.cursor, h.sent⟩⟩

/-- What a step from a `FLUSH` under way does, as its next agent's turn. -/
theorem flushTurn (h : FlushUnderWay past fb s) (hs : step s = .next t) :
    FlushTurn (s.setTurns s.turns.tail) (nextTurn s) t :=
  flushTurn_of_step h.busy h.running h.op hs

/-- The same of a step. -/
theorem step_next (h : FlushUnderWay past fb s) (hs : step s = .next t) :
    FlushUnderWay past fb t ∨ FlushOver past fb t :=
  (h.setTurns _).turn_next (h.flushTurn hs)

/-- After any number of steps it is under way or has ended on the way. -/
theorem run_next {n : Nat} (h : FlushUnderWay past fb s)
    (hrun : Host.Core.run Sys2Proof.core n s = .next t) :
    FlushUnderWay past fb t ∨
      ∃ (m : Nat) (u : State), m ≤ n ∧ Host.Core.run Sys2Proof.core m s = .next u ∧
        FlushOver past fb u := by
  induction n generalizing s with
  | zero => exact .inl (run_zero_next.1 hrun ▸ h)
  | succ n ih =>
    obtain ⟨u, hs, hrun⟩ := run_succ_next.1 hrun
    rcases h.step_next hs with hu | hover
    · refine (ih hu hrun).imp_right ?_
      rintro ⟨m, v, hm, hv, hover⟩
      exact ⟨m + 1, v, Nat.succ_le_succ hm, run_succ_next.2 ⟨u, hs, hv⟩, hover⟩
    · exact .inr ⟨1, u, Nat.succ_pos n, run_succ_next.2 ⟨u, hs, rfl⟩, hover⟩

end FlushUnderWay

/-- An accepted `CMD` write of `FLUSH` begins one, at cursor 0 (R38, R160; log 8). -/
theorem startCommand_flushUnderWay {w : Word} {s : State} (hw : cmdOp w = 0x8#4)
    (hv : s.snk.valid = false) : FlushUnderWay s.trace s.fb (startCommand w s) where
  running := rfl
  busy := rfl
  op := hw
  contents := rfl
  cursor := Nat.zero_le _
  offered hf := absurd hf (ne_true_of_eq_false hv)
  sent := by simp

/-- Settles O60: the start, every step, and every run of a `FLUSH` under way. -/
theorem flushTransfersArePrefix : Obligations.FlushTransfersArePrefix :=
  ⟨fun _ _ => startCommand_flushUnderWay,
    fun _ _ _ _ h hs => ⟨h.step_next hs, (h.flushTurn hs).reset_of_clearing h.running⟩,
    fun _ _ _ _ _ h => h.run_next⟩

/-! ### The turns a `FLUSH` still needs -/

/-- The turns that take a `FLUSH` from `s` to its end when the sink accepts at once (R187). -/
def flushLeft (s : State) : List Agent :=
  if s.snk.valid then .sink :: flushTurns (s.cfg.cells - (s.work.cursor + 1))
  else flushTurns (s.cfg.cells - s.work.cursor)

section
variable {s : State}

/-- An offered transfer needs its acceptance. -/
theorem flushLeft_of_offered (hv : s.snk.valid = true) :
    flushLeft s = .sink :: flushLeft { s with
      trace := s.trace ++ [s.snk.payload]
      snk := { s.snk with valid := false }
      work := { s.work with cursor := s.work.cursor + 1 } } := by
  rw [flushLeft, if_pos hv]
  rfl

/-- A cell needs its offer. -/
theorem flushLeft_of_lt (hv : s.snk.valid = false) (hc : s.work.cursor < s.cfg.cells) :
    flushLeft s = .engine :: flushLeft (offerTransfer s) := by
  have hcells : s.cfg.cells - s.work.cursor = s.cfg.cells - (s.work.cursor + 1) + 1 := by omega
  rw [flushLeft, if_neg (ne_true_of_eq_false hv), hcells]
  rfl

/-- After the last cell the engine's final turn is needed. -/
theorem flushLeft_of_le (hv : s.snk.valid = false) (hc : s.cfg.cells ≤ s.work.cursor) :
    flushLeft s = [.engine] := by
  rw [flushLeft, if_neg (ne_true_of_eq_false hv), Nat.sub_eq_zero_of_le hc, flushTurns]

/-- With nothing offered the engine's turn is the next needed. -/
theorem flushLeft_of_not_offered (hv : s.snk.valid = false) :
    ∃ us, flushLeft s = .engine :: us := by
  rcases Nat.lt_or_ge s.work.cursor s.cfg.cells with hc | hc
  · exact ⟨_, flushLeft_of_lt hv hc⟩
  · exact ⟨[], flushLeft_of_le hv hc⟩

theorem flushLeft_eq_cons (s : State) :
    ∃ a us, flushLeft s = a :: us ∧ (a = .engine ∨ a = .sink) := by
  cases hv : s.snk.valid with
  | true => exact ⟨_, _, flushLeft_of_offered hv, .inr rfl⟩
  | false =>
    obtain ⟨us, h⟩ := flushLeft_of_not_offered hv
    exact ⟨_, us, h, .inl rfl⟩

end

namespace FlushTurn

variable {a : Agent} {s t : State}

/-- A turn that does not end a `FLUSH` is the next it needs, or leaves these as they are (R188). -/
theorem flushLeft_sublist (h : FlushTurn s a t) (he : t.eng = .running) {us : List Agent}
    (hsub : (flushLeft s).Sublist (a :: us)) : (flushLeft t).Sublist us := by
  cases h with
  | hosted =>
    obtain ⟨b, vs, e, hb⟩ := flushLeft_eq_cons s
    rw [e] at hsub
    change (flushLeft s).Sublist us
    rw [e]
    exact .of_cons_of_ne (by rintro rfl; simp at hb) hsub
  | waited hv =>
    rw [flushLeft_of_offered hv] at hsub ⊢
    exact .of_cons_of_ne (by decide) hsub
  | offered hv hc =>
    rw [flushLeft_of_lt hv hc] at hsub
    exact List.cons_sublist_cons.1 hsub
  | ended | abandoned => cases he
  | accepted hv =>
    rw [flushLeft_of_offered hv] at hsub
    exact List.cons_sublist_cons.1 hsub
  | unused hv =>
    obtain ⟨vs, e⟩ := flushLeft_of_not_offered hv
    rw [e] at hsub ⊢
    exact .of_cons_of_ne (by decide) hsub

/-- No turn looks at the turns that follow (log 6). -/
theorem turns_eq (h : FlushTurn s a t) : t.turns = s.turns := by
  cases h <;> rfl

end FlushTurn

/-! ### What a `FLUSH` leaves alone -/

/-- From `s` to `t` only the engine's state, the sink's side and the host's own side change, and the
host's program only shrinks. -/
structure FlushFrame (s t : State) : Prop where
  fields : t = { s with
    eng := t.eng, busy := t.busy, trace := t.trace, snk := t.snk, work := t.work, turns := t.turns
    program := t.program, pending := t.pending, reads := t.reads }
  program : t.program.Sublist s.program

theorem FlushFrame.trans {s t u : State} (h : FlushFrame s t) (h' : FlushFrame t u) :
    FlushFrame s u where
  fields := h'.fields.trans (by rw [h.fields])
  program := h'.program.trans h.program

theorem FlushFrame.cfg_eq {s t : State} (h : FlushFrame s t) : t.cfg = s.cfg := by rw [h.fields]

theorem FlushFrame.setTurns (s : State) (ts : List Agent) : FlushFrame s (s.setTurns ts) :=
  ⟨rfl, .refl _⟩

/-- Every turn but `RST` (R160, R162). -/
theorem FlushTurn.frame {a : Agent} {s t : State} (h : FlushTurn s a t) (ha : a ≠ .reset) :
    FlushFrame s t := by
  cases h with
  | hosted p o rs hp => exact ⟨rfl, hp⟩
  | waited | offered | ended | accepted | unused => exact ⟨rfl, .refl _⟩
  | abandoned => exact absurd rfl ha

/-! ### A host inside the window -/

/-- Every access the host has yet to issue is in the window (R52). -/
def ProgramInWindow (s : State) : Prop :=
  ∀ a, HostOp.access a ∈ s.program → inWindow s.cfg a.addr = true

theorem ProgramInWindow.of_frame {s t : State} (hw : ProgramInWindow s) (h : FlushFrame s t) :
    ProgramInWindow t := fun a ha => by
  rw [h.cfg_eq]
  exact hw a (h.program.subset ha)

/-- Such a host does not fault (R180). -/
theorem ProgramInWindow.hostTurn_next {s : State} (h : ProgramInWindow s) :
    ∃ t, hostTurn s = .next t := by
  rcases hostTurn_cases s with ⟨_, -, -, e⟩ | ⟨_, -, -, e⟩ | ⟨-, -, e⟩ | ⟨_, -, -, e⟩ |
    ⟨_, _, -, -, -, -, e⟩ | ⟨_, _, -, -, -, -, e⟩ | ⟨a, rest, -, hr, hout, -⟩
  case inr.inr.inr.inr.inr.inr =>
    have hin := h a (hr ▸ List.mem_cons_self)
    exact absurd hin (ne_true_of_eq_false hout)
  all_goals exact ⟨_, e⟩

/-- With such a host every step answers a next state. -/
theorem ProgramInWindow.step_next {s : State} (h : ProgramInWindow s) (hl : s.cfg.legal = true) :
    ∃ t, step s = .next t := by
  rw [step_of_legal hl]
  cases nextTurn s with
  | host => exact hostTurn_next (s := s.setTurns s.turns.tail) h
  | engine => exact engineTurn_next _
  | sink | reset => exact ⟨_, rfl⟩

/-! ### A `FLUSH` ends -/

/-- Within turns that have those it still needs among them, and no `RST`, a `FLUSH` under way
completes (R187, R188). -/
theorem FlushUnderWay.completes {past : List Transfer} {fb : Memory} {us ts : List Agent} {s : State}
    (h : FlushUnderWay past fb s) (hl : s.cfg.legal = true) (hw : ProgramInWindow s)
    (ht : s.turns = us ++ ts) (hsub : (flushLeft s).Sublist us) (hr : .reset ∉ us) :
    ∃ (n : Nat) (t : State), n ≤ us.length ∧ Host.Core.run Sys2Proof.core n s = .next t ∧
      FlushOver past fb t ∧ t.eng ≠ .clearing ∧ FlushFrame s t := by
  induction us generalizing s with
  | nil =>
    obtain ⟨a, vs, e, -⟩ := flushLeft_eq_cons s
    rw [e] at hsub
    cases hsub
  | cons a us ih =>
    obtain ⟨ha, hr⟩ : a ≠ .reset ∧ .reset ∉ us := by simpa [eq_comm] using hr
    obtain ⟨u, hu⟩ := hw.step_next hl
    have hturn : FlushTurn (s.setTurns (us ++ ts)) a u := by
      have hnext := h.flushTurn hu
      rwa [nextTurn_of_turns ht, ht] at hnext
    have hframe : FlushFrame s u := (FlushFrame.setTurns s _).trans (hturn.frame ha)
    rcases h.step_next hu with hway | hover
    · obtain ⟨n, t, hn, hrun, hover, hne, hrest⟩ :=
        ih hway (hframe.cfg_eq ▸ hl) (hw.of_frame hframe) hturn.turns_eq
          (hturn.flushLeft_sublist hway.running hsub) hr
      exact ⟨n + 1, t, Nat.succ_le_succ hn, run_succ_next.2 ⟨u, hu, hrun⟩, hover, hne,
        hframe.trans hrest⟩
    · exact ⟨1, u, Nat.succ_pos _, run_succ_next.2 ⟨u, hu, rfl⟩, hover,
        fun hc => ha (hturn.reset_of_clearing h.running hc), hframe⟩

section
variable {s : State} {ts : List Agent}

/-- The step of the engine's turn at a running `FLUSH`. -/
theorem step_of_flush (hl : s.cfg.legal = true) (he : s.eng = .running) (ho : s.latch.op = 0x8#4)
    (ht : s.turns = .engine :: ts) : step s = execFlush (s.setTurns ts) := by
  rw [step_of_legal hl, nextTurn_of_turns ht, ht]
  exact engineTurn_of_flush he ho

/-- A cell offered and accepted at once (R162). -/
theorem run_flush_cell (hl : s.cfg.legal = true) (he : s.eng = .running) (ho : s.latch.op = 0x8#4)
    (hv : s.snk.valid = false) (hc : s.work.cursor < s.cfg.cells)
    (ht : s.turns = .engine :: .sink :: ts) :
    Host.Core.run Sys2Proof.core 2 s = .next { s with
      trace := s.trace ++ [transferAt s.cfg s.fb s.work.cursor]
      snk := { valid := false, payload := transferAt s.cfg s.fb s.work.cursor }
      work := { s.work with cursor := s.work.cursor + 1 }
      turns := ts } := by
  have hoffer : step s = .next (offerTransfer (s.setTurns (.sink :: ts))) := by
    rw [step_of_flush hl he ho ht]
    exact execFlush_of_lt hv hc
  have haccept := (sinkAcceptsOfferedTransferOnce (offerTransfer (s.setTurns (.sink :: ts))) hl rfl).1 rfl
  exact run_succ_next.2 ⟨_, hoffer, run_succ_next.2 ⟨_, haccept, rfl⟩⟩

/-- The `n` cells left, each offered and accepted at once, and the final step (R187). -/
theorem run_flushTurns {n : Nat} {past : List Transfer} (hl : s.cfg.legal = true)
    (he : s.eng = .running) (ho : s.latch.op = 0x8#4) (hv : s.snk.valid = false)
    (hn : s.work.cursor + n = s.cfg.cells)
    (hsent : s.trace = past ++ (rowMajor s.cfg s.fb).take s.work.cursor)
    (ht : s.turns = flushTurns n ++ ts) :
    ∃ t : State, Host.Core.run Sys2Proof.core (2 * n + 1) s = .next t ∧
      t.trace = past ++ rowMajor s.cfg s.fb ∧ t.snk.valid = false ∧
      t = { s with
        eng := .idle, busy := false, trace := t.trace, snk := t.snk, work := t.work, turns := ts } := by
  induction n generalizing s with
  | zero =>
    have hend : step s = .next (finish (s.setTurns ts)) := by
      rw [step_of_flush hl he ho ht]
      exact execFlush_of_le hv hn.ge
    have hall : (rowMajor s.cfg s.fb).take s.work.cursor = rowMajor s.cfg s.fb :=
      List.take_of_length_le (by rw [rowMajor_length]; exact hn.ge)
    refine ⟨_, run_succ_next.2 ⟨_, hend, rfl⟩, ?_, hv, rfl⟩
    rw [finish_trace, setTurns_trace, hsent, hall]
  | succ n ih =>
    have hc : s.work.cursor < s.cfg.cells := by omega
    have hcell := run_flush_cell hl he ho hv hc ht
    obtain ⟨t, hrun, htrace, hvalid, hframe⟩ :=
      ih (s := { s with
          trace := s.trace ++ [transferAt s.cfg s.fb s.work.cursor]
          snk := { valid := false, payload := transferAt s.cfg s.fb s.work.cursor }
          work := { s.work with cursor := s.work.cursor + 1 }
          turns := flushTurns n ++ ts })
        hl he ho rfl (by rw [← hn, Nat.succ_add_eq_add_succ])
        (by rw [hsent, List.append_assoc, ← rowMajor_take_succ _ _ hc]) rfl
    have hsteps : 2 * (n + 1) + 1 = 2 + (2 * n + 1) := by omega
    refine ⟨t, ?_, htrace, hvalid, hframe⟩
    rw [hsteps]
    exact (coreRun_add_next ..).2 ⟨_, hcell, hrun⟩

end

/-- A `FLUSH` at cursor 0 with nothing offered is under way (R160). -/
theorem flushUnderWay_of_start {s : State} (hb : s.busy = true) (he : s.eng = .running)
    (ho : s.latch.op = 0x8#4) (hc : s.work.cursor = 0) (hv : s.snk.valid = false) :
    FlushUnderWay s.trace s.fb s where
  running := he
  busy := hb
  op := ho
  contents := rfl
  cursor := by simp [hc]
  offered hf := absurd hf (ne_true_of_eq_false hv)
  sent := by simp [hc]

/-- At its start a `FLUSH` needs the turns of the whole buffer. -/
theorem flushLeft_of_start {s : State} (hc : s.work.cursor = 0) (hv : s.snk.valid = false) :
    flushLeft s = flushTurns s.cfg.cells := by
  rw [flushLeft, if_neg (ne_true_of_eq_false hv), hc, Nat.sub_zero]

/-- Settles O39: with an immediate sink by the turns in order, and within any turns that have these
among them. -/
theorem flushSendsBufferRowMajor : Obligations.FlushSendsBufferRowMajor := by
  refine ⟨fun s ts hl he ho hc hv ht => ?_, fun s us ts hl hb he ho hc hv hw ht hsub hr => ?_⟩
  · obtain ⟨t, hrun, htrace, hvalid, hframe⟩ :=
      run_flushTurns (past := s.trace) hl he ho hv (by rw [hc, Nat.zero_add]) (by simp [hc]) ht
    exact ⟨t, hrun, htrace, rowMajor_length .., by rw [hframe], by rw [hframe], hvalid, hframe⟩
  · obtain ⟨n, t, hn, hrun, ⟨hvalid, hover⟩, hne, hframe⟩ :=
      (flushUnderWay_of_start hb he ho hc hv).completes hl hw ht (flushLeft_of_start hc hv ▸ hsub) hr
    rcases hover with ⟨hidle, hbusy, -, htrace⟩ | ⟨hclear, -⟩
    · refine ⟨n, t, hn, hrun, hframe.cfg_eq ▸ htrace, hvalid, ?_⟩
      rw [← hidle, ← hbusy]
      exact hframe.fields
    · exact absurd hclear hne

/-! ### What was observed stands -/

/-- From `s` to `t` the parameters stand, and the sink's trace and the host's reads are only added to
(R162, R215). -/
def OnlyAdds (s t : State) : Prop :=
  t.cfg = s.cfg ∧ s.trace.IsPrefix t.trace ∧ s.reads.IsPrefix t.reads

namespace OnlyAdds

variable {s t : State}

theorem of_eq (hcfg : t.cfg = s.cfg) (htrace : t.trace = s.trace) (hreads : t.reads = s.reads) :
    OnlyAdds s t := ⟨hcfg, htrace ▸ List.prefix_rfl, hreads ▸ List.prefix_rfl⟩

theorem of_recordRead (w : Word) (s : State) : OnlyAdds s (recordRead w s) :=
  ⟨rfl, List.prefix_rfl, List.prefix_append ..⟩

/-- A completed access hands the host a value or sets registers and latch (R51). -/
theorem of_complete (a : Access) (s : State) : OnlyAdds s (complete a s) := by
  rcases complete_cases a s with ⟨w, e⟩ | ⟨w, e⟩ | ⟨w, e⟩ | ⟨w, e⟩ | e
  · exact e ▸ of_recordRead w s
  · exact e ▸ of_eq rfl rfl rfl
  · exact e ▸ of_eq rfl rfl rfl
  · exact e ▸ of_eq rfl rfl rfl
  · exact e.symm ▸ of_eq rfl rfl rfl

theorem hostTurn_next (h : hostTurn s = .next t) : OnlyAdds s t := by
  rcases hostTurn_cases s with ⟨a, -, -, e⟩ | ⟨a, -, -, e⟩ | ⟨-, -, e⟩ | ⟨rest, -, -, e⟩ |
    ⟨a, rest, -, -, -, -, e⟩ | ⟨a, rest, -, -, -, -, e⟩ | ⟨a, rest, -, -, -, e⟩ <;>
    cases e.symm.trans h
  · exact of_eq rfl rfl rfl
  · exact of_complete a { s with pending := none }
  · exact of_eq rfl rfl rfl
  · exact of_recordRead _ { s with program := if s.busy then s.program else rest }
  · exact of_eq rfl rfl rfl
  · exact of_complete a { s with program := rest }

/-- A command hands the sink nothing of its own: an offered transfer is not accepted yet (R162). -/
theorem exec_next {i : Instr} (h : exec i s = .next t) : OnlyAdds s t := by
  by_cases hi : i = .flush
  · subst hi
    rcases execFlush_cases s with ⟨-, e⟩ | ⟨-, -, e⟩ | ⟨-, -, e⟩ <;> cases e.symm.trans h <;>
      exact of_eq rfl rfl rfl
  · obtain ⟨u, hu, hframe⟩ := exec_frame_of_ne_flush hi s
    cases hu.symm.trans h
    rw [hframe]
    exact of_eq rfl rfl rfl

theorem engineTurn_next (h : engineTurn s = .next t) : OnlyAdds s t := by
  unfold engineTurn at h
  cases he : s.eng <;> rw [he] at h
  case idle => cases h; exact of_eq rfl rfl rfl
  case clearing =>
    cases h
    rw [resetClear, clearCells_frame]
    exact of_eq rfl rfl rfl
  case running => exact exec_next h

/-- The sink's acceptance adds the one transfer that was offered (R162). -/
theorem of_sinkAccept (s : State) : OnlyAdds s (sinkAccept s) := by
  unfold sinkAccept
  split
  · exact ⟨rfl, List.prefix_append .., List.prefix_rfl⟩
  · exact of_eq rfl rfl rfl

theorem agentTurn_next {a : Agent} (h : agentTurn a s = .next t) : OnlyAdds s t := by
  cases a with
  | host => exact hostTurn_next h
  | engine => exact engineTurn_next h
  | sink => cases h; exact of_sinkAccept s
  | reset => cases h; exact of_eq rfl rfl rfl

end OnlyAdds

/-- Settles O58: spending the turn adds nothing, and each agent's turn only adds. -/
theorem stepOnlyExtendsObservations : Obligations.StepOnlyExtendsObservations := fun s _ h =>
  OnlyAdds.agentTurn_next (s := s.setTurns s.turns.tail) (step_next h).2

end Sys2Proof.Machine

/-! ## Proofs: nothing fails inside the window

The statement of the family `60_exceptions` (O51). A step from legal parameters is never refused
(`agentTurn_ne_refused`), and only the host's turn faults, at an access outside the window. -/

namespace Sys2Proof.Machine

/-- A fault of the host's turn is the issue of an access outside the window (R52, log 10). -/
theorem hostTurn_fault {s : State} {r : Fault} (h : hostTurn s = .fault r) :
    ∃ a rest, s.program = .access a :: rest ∧ inWindow s.cfg a.addr = false := by
  rcases hostTurn_cases s with ⟨_, -, -, e⟩ | ⟨_, -, -, e⟩ | ⟨-, -, e⟩ | ⟨_, -, -, e⟩ |
    ⟨_, _, -, -, -, -, e⟩ | ⟨_, _, -, -, -, -, e⟩ | ⟨a, rest, -, hr, hout, -⟩
  case inr.inr.inr.inr.inr.inr => exact ⟨a, rest, hr, hout⟩
  all_goals cases e.symm.trans h

/-- No agent but the host faults: every command, the sink's acceptance and `RST` answer a next state
(R180). -/
theorem agentTurn_fault {a : Agent} {s : State} {r : Fault} (h : agentTurn a s = .fault r) :
    hostTurn s = .fault r := by
  cases a with
  | host => exact h
  | engine =>
    obtain ⟨t, e⟩ := engineTurn_next s
    cases e.symm.trans h
  | sink | reset => cases h

/-- Settles O51: the turn is not refused, and its fault would be an access outside the window at the
head of the host's program. -/
theorem nothingFailsInsideTheWindow : Obligations.NothingFailsInsideTheWindow := by
  intro s hl hw
  rw [step_of_legal hl]
  cases h : agentTurn (nextTurn s) (s.setTurns s.turns.tail) with
  | next t => exact ⟨t, rfl⟩
  | refused r => exact absurd h (agentTurn_ne_refused _ _ r)
  | fault r =>
    obtain ⟨a, rest, hr, hout⟩ := hostTurn_fault (agentTurn_fault h)
    exact absurd (hw a rest hr) (ne_true_of_eq_false hout)

end Sys2Proof.Machine

/-! ## Proofs: the reset input and the reset clear

The statements of the family `70_reset_and_hazards` about a turn of `RST` (O54) and the turn that follows
it, the reset clear (O55). Each turn is named once; what it leaves is then read off `applyReset` or off the
frame of the reset clear. -/

namespace Sys2Proof.Machine

/-! ### `RST` -/

/-- From legal parameters, a step at which `RST` is next spends its turn and resets (R210, R211). -/
theorem step_of_reset {s : State} (hl : s.cfg.legal = true) (hn : nextTurn s = .reset) :
    step s = .next (applyReset (s.setTurns s.turns.tail)) := by
  rw [step_of_legal hl, hn]
  rfl

/-- `RST` drops the held access, or keeps it for the bus to retry; it never performs it (R213, log 12). -/
theorem applyReset_pending_eq_none_or (s : State) :
    (applyReset s).pending = none ∨ (applyReset s).pending = s.pending := by
  rw [applyReset_pending]
  exact (ite_eq_or_eq _ _ _).symm

/-- Settles O54: the fields of `applyReset`, and its two answers to a held access. -/
theorem resetAbandonsEverything : Obligations.ResetAbandonsEverything := fun s hl hn =>
  ⟨applyReset (s.setTurns s.turns.tail), step_of_reset hl hn,
    rfl, rfl, rfl, rfl, rfl, rfl, rfl, rfl, rfl, rfl, rfl, rfl, rfl,
    applyReset_pending_eq_none_or (s.setTurns s.turns.tail)⟩

/-! ### The reset clear -/

/-- From legal parameters, a step at which the engine is next and the reset clear is due is the reset
clear (R212). -/
theorem step_of_clearing {s : State} (hl : s.cfg.legal = true) (hn : nextTurn s = .engine)
    (he : s.eng = .clearing) : step s = .next (resetClear (s.setTurns s.turns.tail)) := by
  rw [step_of_legal hl, hn, agentTurn, engineTurn, setTurns_eng, he]

/-- The frame of the reset clear (R212). -/
theorem resetClear_frame (s : State) :
    resetClear s = { s with
      fb := (clearCells s).fb, work := { s.work with cursor := s.cfg.cells }
      eng := .idle, busy := false } := by
  rw [resetClear, clearCells_frame]
  rfl

/-- Settles O55: the cells by `cell_of_cleared`, as for `CLEAR`, the rest by the frame. -/
theorem resetClearTurnsAllOff : Obligations.ResetClearTurnsAllOff := by
  intro s hl hn he
  refine ⟨_, (step_of_clearing hl hn he).trans (congrArg _ (resetClear_frame _)), ?cells, rfl⟩
  intro hw x y hr
  exact cell_of_cleared (s := s.setTurns s.turns.tail) (by rfl) (by rfl) hw hr

end Sys2Proof.Machine
